-- ==== Sys2Proof/Word.lean ====
section
/-! DEFINITION. The word types of the block: a byte, a byte sequence and a 32-bit pattern (00_scope.md rule R12). -/

namespace Sys2Proof

/-- A byte: 8 bits, unsigned (00_scope.md rule R12). -/
abbrev Byte := BitVec 8

/-- A byte sequence: a finite list of bytes, offset 0 first (00_scope.md rule R12). -/
abbrev Bytes := List Byte

/-- A word32: a 32-bit pattern (00_scope.md rule R12). -/
abbrev Word32 := BitVec 32

end Sys2Proof
end

