-- ==== Sys2Proof/Config.lean ====
section
/-! DEFINITION. The block's control registers: the configuration parameters of 00_scope.md rule R10 that an instance
may choose (10_state.md rule R26), and the free values that the spec leaves open. Parameters with one legal value are
named constants in Sys2Proof/Machine/Params.lean. -/

namespace Sys2Proof

/-- SEQ_<kind>, one byte per command kind (00_scope.md rule R10; 92_eei_decisions.md D4). -/
structure SeqTable where
  drive : Byte
  rawMotors : Byte
  driveToPositionSI : Byte
  resetYaw : Byte
  configureStreaming : Byte
  startStreaming : Byte
  setAllLEDs : Byte
  wake : Byte
  sleep : Byte
  deriving DecidableEq, Repr

/-- SCALED_FORMAT (10_state.md rule R26; 43_payload_deserializer.md rule R173). -/
inductive ScaledFormat where
  | binary64
  | exact
  deriving DecidableEq, Repr

/-- The configuration of one instance. `none` as a stream payload is "OPEN" (70_reset_and_hazards.md rule R222);
`none` as `tailCap` is the unbounded capacity (10_state.md rule R26). -/
structure Config where
  seq : SeqTable
  cfgStreamPayload : Option Bytes
  startStreamPayload : Option Bytes
  locRecogOff : Nat
  locXOff : Nat
  locYOff : Nat
  locRawSigned : Bool
  scaledFormat : ScaledFormat
  tailCap : Option Nat
  deriving DecidableEq, Repr

/-- The bytes of CFG_STREAM_PAYLOAD: fixed per instance, not given by the spec (92_eei_decisions.md D11).
A free value: it has no body. DESIGN CHOICE, log 4. -/
opaque Free.cfgStreamPayload : Bytes

/-- The bytes of START_STREAM_PAYLOAD, a free value in the same way. DESIGN CHOICE, log 4. -/
opaque Free.startStreamPayload : Bytes

/-- The n-th unspecified TAIL, drawn after an E_TAIL_OVERFLOW (60_exceptions.md rule R196;
93_implementation_defined.md I11). A free value: it has no body. Log 5. -/
opaque Free.tailAfterOverflow : Nat → Bytes

end Sys2Proof
end

