-- ==== Sys2Proof/Syntax.lean ====
section
/-! DEFINITION. What the host can ask for: raw requests and the RESET event, and `Instr`, one constructor per row of
spec/opcode_table.json (30_encoding.md rules R60 to R67; 70_reset_and_hazards.md rule R220). -/

namespace Sys2Proof

/-- The nine outbound command kinds (00_scope.md rule R2; 30_encoding.md rule R66). -/
inductive Kind where
  | drive
  | rawMotors
  | driveToPositionSI
  | resetYaw
  | configureStreaming
  | startStreaming
  | setAllLEDs
  | wake
  | sleep
  deriving DecidableEq, Repr

/-- One operand slot of a raw request (30_encoding.md rule R60). A sequence slot is held as it arrives, so that the
"byte outside 0..255" of rule R63 can be written and refused. -/
inductive Slot where
  | int (v : Int)
  | word (w : Word32)
  | seq (bs : List Int)
  deriving DecidableEq, Repr

/-- A raw request. `command` is the command interface of 30_encoding.md rule R60. `wireOut` and `wireIn` carry the
opcode table's wire rows: an outbound header word (frame bytes 0 to 3, big-endian) with the payload bytes that stand
at offset 5, and the bytes of an inbound frame. DESIGN CHOICE, log 2. -/
inductive Request where
  | command (op : BitVec 4) (slots : List Slot)
  | wireOut (header : BitVec 32) (payload : Bytes)
  | wireIn (frame : Bytes)
  deriving DecidableEq, Repr

/-- What the host does to the block: issue a request, or apply RESET between requests
(70_reset_and_hazards.md rule R220; RESET is no request, 30_encoding.md rule R76). -/
inductive HostEvent where
  | reset
  | request (r : Request)
  deriving DecidableEq, Repr

/-- One constructor per row of spec/opcode_table.json; operands are typed (30_encoding.md rules R61 and R63). -/
inductive Instr where
  /-- OP 0x0, 40_checksum.md rule R90. -/
  | csum (s : Bytes)
  /-- OP 0x1, 41_frame_encoder.md rule R101. -/
  | encDrive (speed heading : Int)
  /-- OP 0x2, rule R103. -/
  | encRawMotors (leftMode leftSpeed rightMode rightSpeed : Int)
  /-- OP 0x3, rule R104. -/
  | deriveMotor (left right : Int)
  /-- OP 0x4, rule R105. -/
  | encDtpSi (yaw x y speed : Word32)
  /-- OP 0x5, rule R109. -/
  | encResetYaw
  /-- OP 0x6, rule R106. -/
  | encCfgStream
  /-- OP 0x7, rule R107. -/
  | encStartStream
  /-- OP 0x8, rule R108. -/
  | encSetAllLeds (red green blue : Int)
  /-- OP 0x9, rule R110. -/
  | encWake
  /-- OP 0xA, rule R111. -/
  | encSleep
  /-- OP 0xB, 42_frame_scanner.md rule R140. -/
  | scan (chunk : Bytes)
  /-- OP 0xC, 43_payload_deserializer.md rule R175. -/
  | deserLocator (frame : Bytes)
  /-- OP 0xD, 60_exceptions.md rule R195. -/
  | reservedD
  /-- OP 0xE, rule R195. -/
  | reservedE
  /-- OP 0xF, rule R195. -/
  | reservedF
  /-- The outbound Drive frame, by its payload fields (30_encoding.md rule R67). -/
  | wireDrive (speed : Byte) (heading : BitVec 16) (reverse : Bool)
  /-- The outbound RawMotors frame (rule R67). -/
  | wireRawMotors (leftMode leftSpeed rightMode rightSpeed : Byte)
  /-- The outbound DriveToPositionSI frame (rule R67). -/
  | wireDriveToPositionSI (yaw x y speed : Word32)
  /-- The outbound ResetYaw frame (rule R67). -/
  | wireResetYaw
  /-- The outbound ConfigureStreaming frame, whose payload is configuration (rule R67). -/
  | wireConfigureStreaming
  /-- The outbound StartStreaming frame, whose payload is configuration (rule R67). -/
  | wireStartStreaming
  /-- The outbound SetAllLEDs frame (rule R67). -/
  | wireSetAllLEDs (red green blue : Byte)
  /-- The outbound Wake frame (rule R67). -/
  | wireWake
  /-- The outbound Sleep frame (rule R67). -/
  | wireSleep
  /-- An inbound frame of the form 8D b1 b2 b3 3D rest (30_encoding.md rule R70). -/
  | wireLocatorReport (b1 b2 b3 : Byte) (rest : Bytes)
  deriving DecidableEq, Repr

end Sys2Proof
end

