-- ==== Sys2Proof/Machine/Params.lean ====
section
/-! DEFINITION. The named constants of the block (00_scope.md rules R10 and R11; 93_implementation_defined.md §4), the
default configuration, and which configurations are conforming (10_state.md rule R26). -/

namespace Sys2Proof.Machine

/-- START, 0x8D (00_scope.md rule R10). -/
def startMarker : Byte := 0x8D#8

/-- END, 0xD8 (00_scope.md rule R10). -/
def endMarker : Byte := 0xD8#8

/-- LOC_CODE, 0x3D (00_scope.md rule R10). -/
def locCode : Byte := 0x3D#8

/-- LED_ZONES (00_scope.md rule R10). -/
def ledZones : Nat := 10

/-- SCALE_MID (43_payload_deserializer.md rule R172). -/
def scaleMid : Int := 2147483647

/-- SCALE_DIV (43_payload_deserializer.md rule R172). -/
def scaleDiv : Nat := 2147483647

/-- SCALE_RANGE (43_payload_deserializer.md rule R172). -/
def scaleRange : Int := 16000

/-- HDR_<kind>.FLAGS (30_encoding.md rule R66). -/
def flagsOf : Kind → Byte
  | .drive => 0x01#8
  | .rawMotors => 0x01#8
  | .driveToPositionSI => 0x06#8
  | .resetYaw => 0x01#8
  | .configureStreaming => 0x02#8
  | .startStreaming => 0x02#8
  | .setAllLEDs => 0x01#8
  | .wake => 0x01#8
  | .sleep => 0x01#8

/-- HDR_<kind>.DEVICE_ID (30_encoding.md rule R66). -/
def deviceIdOf : Kind → Byte
  | .drive => 0x16#8
  | .rawMotors => 0x16#8
  | .driveToPositionSI => 0x16#8
  | .resetYaw => 0x16#8
  | .configureStreaming => 0x18#8
  | .startStreaming => 0x18#8
  | .setAllLEDs => 0x1A#8
  | .wake => 0x13#8
  | .sleep => 0x13#8

/-- HDR_<kind>.COMMAND_ID (30_encoding.md rule R66). -/
def commandIdOf : Kind → Byte
  | .drive => 0x07#8
  | .rawMotors => 0x01#8
  | .driveToPositionSI => 0x38#8
  | .resetYaw => 0x06#8
  | .configureStreaming => 0x39#8
  | .startStreaming => 0x3A#8
  | .setAllLEDs => 0x1A#8
  | .wake => 0x0D#8
  | .sleep => 0x01#8

/-- SEQ_<kind> of an instance (30_encoding.md rule R66). -/
def seqOf (t : SeqTable) : Kind → Byte
  | .drive => t.drive
  | .rawMotors => t.rawMotors
  | .driveToPositionSI => t.driveToPositionSI
  | .resetYaw => t.resetYaw
  | .configureStreaming => t.configureStreaming
  | .startStreaming => t.startStreaming
  | .setAllLEDs => t.setAllLEDs
  | .wake => t.wake
  | .sleep => t.sleep

/-- The configuration payload of the two fixed-payload kinds; none while it is OPEN (30_encoding.md rule R67). -/
def streamPayload (c : Config) : Kind → Option Bytes
  | .configureStreaming => c.cfgStreamPayload
  | .startStreaming => c.startStreamPayload
  | _ => none

/-- SEQ_<kind> = 0x00 for every kind (00_scope.md rule R10; 92_eei_decisions.md D4). -/
def defaultSeq : SeqTable :=
  { drive := 0x00#8, rawMotors := 0x00#8, driveToPositionSI := 0x00#8, resetYaw := 0x00#8,
    configureStreaming := 0x00#8, startStreaming := 0x00#8, setAllLEDs := 0x00#8, wake := 0x00#8, sleep := 0x00#8 }

/-- The defaults of 00_scope.md rule R10. The two OPEN payloads are set to bytes nothing is known about
(DESIGN CHOICE, log 4). -/
def defaultConfig : Config :=
  { seq := defaultSeq
    cfgStreamPayload := some Free.cfgStreamPayload
    startStreamPayload := some Free.startStreamPayload
    locRecogOff := 4
    locXOff := 5
    locYOff := 9
    locRawSigned := true
    scaledFormat := .binary64
    tailCap := none }

/-- TAIL_CAP is at least 1, or unbounded (10_state.md rule R26). -/
def tailCapLegal : Option Nat → Bool
  | none => true
  | some n => decide (1 ≤ n)

/-- The "legal values" column of 10_state.md rule R26. -/
def conforming (c : Config) : Bool :=
  decide (1 ≤ c.locRecogOff) && decide (1 ≤ c.locXOff) && decide (1 ≤ c.locYOff) && tailCapLegal c.tailCap

end Sys2Proof.Machine
end

