-- ==== Sys2Proof/Machine/Fields.lean ====
section
/-! DEFINITION. Field packing and unpacking (00_scope.md rules R12 to R14; 30_encoding.md rule R68) and the payload
layouts of 30_encoding.md rule R67. -/

namespace Sys2Proof.Machine

/-- `lo8(v) = v mod 256`, floored (00_scope.md rule R13). -/
def lo8 (v : Int) : Byte := BitVec.ofInt 8 v

/-- `be16(v)`, most significant byte first (00_scope.md rule R14). -/
def be16 (v : BitVec 16) : Bytes := [v.extractLsb' 8 8, v.extractLsb' 0 8]

/-- `be32(w)`, most significant byte first (00_scope.md rule R14). -/
def be32 (w : Word32) : Bytes :=
  [w.extractLsb' 24 8, w.extractLsb' 16 8, w.extractLsb' 8 8, w.extractLsb' 0 8]

/-- `B[i..j]`, both ends included (00_scope.md rule R12). -/
def slice (b : Bytes) (i j : Nat) : Bytes := (b.drop i).take (j + 1 - i)

/-- `B[i]`. Every caller stays inside the sequence; outside it this answers 0 (log 14). -/
def byteAt (b : Bytes) (i : Nat) : Byte := b.getD i 0x00#8

/-- `u32be(B, o)`: four bytes as an unsigned big-endian value (00_scope.md rule R14). -/
def u32be (b : Bytes) (o : Nat) : Nat :=
  (byteAt b o).toNat * 2 ^ 24 + (byteAt b (o + 1)).toNat * 2 ^ 16 + (byteAt b (o + 2)).toNat * 2 ^ 8
    + (byteAt b (o + 3)).toNat

/-- `sext_32(u)`: the two's-complement reading (00_scope.md rule R14). -/
def sext32 (u : Nat) : Int := if u < 2 ^ 31 then (u : Int) else (u : Int) - 2 ^ 32

/-- `sum(B)`, with no truncation (00_scope.md rule R13). -/
def byteSum (b : Bytes) : Nat := (b.map BitVec.toNat).sum

/-- The drive-flags byte: 0x01 reverse, 0x00 otherwise (30_encoding.md rule R67). -/
def reverseByte (reverse : Bool) : Byte := if reverse then 0x01#8 else 0x00#8

/-- Drive: speed byte, heading high byte, heading low byte, drive-flags byte (30_encoding.md rule R67). -/
def drivePayload (speed : Byte) (heading : BitVec 16) (reverse : Bool) : Bytes :=
  [speed] ++ be16 heading ++ [reverseByte reverse]

/-- RawMotors: left mode, left speed, right mode, right speed (30_encoding.md rule R67). -/
def rawMotorsPayload (leftMode leftSpeed rightMode rightSpeed : Byte) : Bytes :=
  [leftMode, leftSpeed, rightMode, rightSpeed]

/-- DriveToPositionSI: four big-endian words and one zero byte (30_encoding.md rule R67). -/
def dtpPayload (yaw x y speed : Word32) : Bytes :=
  be32 yaw ++ be32 x ++ be32 y ++ be32 speed ++ [0x00#8]

/-- SetAllLEDs: the same triple for every zone (30_encoding.md rule R67). -/
def ledPayload (red green blue : Byte) : Bytes :=
  (List.replicate ledZones [red, green, blue]).flatten

/-- The five fixed and three free bytes of an inbound locator report, then its rest (30_encoding.md rule R70). -/
def locatorFrame (b1 b2 b3 : Byte) (rest : Bytes) : Bytes :=
  startMarker :: b1 :: b2 :: b3 :: locCode :: rest

/-- The header word of a kind: frame bytes 0 to 3 read big-endian (30_encoding.md rules R64 and R66). -/
def wireHeader (k : Kind) : BitVec 32 := startMarker ++ flagsOf k ++ deviceIdOf k ++ commandIdOf k

end Sys2Proof.Machine
end

