-- ==== Sys2Proof/WellFormed.lean ====
section
/-! DEFINITION. Which instructions are well formed. Command requests are typed, so every one of them is
(30_encoding.md rule R63); an outbound wire row must name a payload an encoder can produce
(30_encoding.md rule R67; 41_frame_encoder.md rules R102 and R103). -/

namespace Sys2Proof

/-- A RawMotors mode byte is OFF, FORWARD or BACKWARD (41_frame_encoder.md rule R103). -/
def modeByteOk (m : Byte) : Bool := decide (m.toNat ≤ 2)

/-- The payload fields of a wire row are ones the encoder can put there: the reverse branch of Drive reduces the
heading to 0..359 (41_frame_encoder.md rule R102), and RawMotors modes are coerced to 0..2 (rule R103). -/
def Instr.wellFormed : Instr → Bool
  | .csum _ => true
  | .encDrive _ _ => true
  | .encRawMotors _ _ _ _ => true
  | .deriveMotor _ _ => true
  | .encDtpSi _ _ _ _ => true
  | .encResetYaw => true
  | .encCfgStream => true
  | .encStartStream => true
  | .encSetAllLeds _ _ _ => true
  | .encWake => true
  | .encSleep => true
  | .scan _ => true
  | .deserLocator _ => true
  | .reservedD => true
  | .reservedE => true
  | .reservedF => true
  | .wireDrive _ heading reverse => !reverse || decide (heading.toNat < 360)
  | .wireRawMotors lm _ rm _ => modeByteOk lm && modeByteOk rm
  | .wireDriveToPositionSI _ _ _ _ => true
  | .wireResetYaw => true
  | .wireConfigureStreaming => true
  | .wireStartStreaming => true
  | .wireSetAllLEDs _ _ _ => true
  | .wireWake => true
  | .wireSleep => true
  | .wireLocatorReport _ _ _ _ => true

end Sys2Proof
end

