-- ==== Sys2Proof/Decode.lean ====
section
/-! DEFINITION. From a raw request to an instruction, or a rejection by name, and back: 30_encoding.md rules R60 to
R63 (command interface), R64 to R67 (outbound wire rows) and R70 (inbound wire row). -/

namespace Sys2Proof

/-- Why a raw request is no instruction. -/
inductive DecodeError where
  /-- The operand slots do not match the format of this OP (30_encoding.md rule R63). -/
  | malformedSlots (op : BitVec 4)
  /-- The header word is that of no command kind (30_encoding.md rule R66). -/
  | unknownWireHeader (header : BitVec 32)
  /-- The payload bytes are none that the encoder of this kind produces (30_encoding.md rule R67). -/
  | badWirePayload (kind : Kind)
  deriving DecidableEq, Repr

open Machine

/-- A sequence slot's entry is a byte when it lies in 0..255 (00_scope.md rule R12; 30_encoding.md rule R63). -/
def byteOf? (v : Int) : Option Byte :=
  if 0 ≤ v ∧ v ≤ 255 then some (BitVec.ofInt 8 v) else none

/-- All the entries of a sequence slot, when each is a byte. -/
def bytesOf? : List Int → Option Bytes
  | [] => some []
  | v :: vs =>
    match byteOf? v, bytesOf? vs with
    | some b, some bs => some (b :: bs)
    | _, _ => none

/-- Format N: no slot (30_encoding.md rule R61). -/
def formatN (op : BitVec 4) (slots : List Slot) (i : Instr) : Except DecodeError Instr :=
  match slots with
  | [] => .ok i
  | _ => .error (.malformedSlots op)

/-- Format S: one byte sequence (30_encoding.md rule R61). -/
def formatS (op : BitVec 4) (slots : List Slot) (f : Bytes → Instr) : Except DecodeError Instr :=
  match slots with
  | [.seq vs] =>
    match bytesOf? vs with
    | some bs => .ok (f bs)
    | none => .error (.malformedSlots op)
  | _ => .error (.malformedSlots op)

/-- Format I2: two integers (30_encoding.md rule R61). -/
def formatI2 (op : BitVec 4) (slots : List Slot) (f : Int → Int → Instr) : Except DecodeError Instr :=
  match slots with
  | [.int a, .int b] => .ok (f a b)
  | _ => .error (.malformedSlots op)

/-- Format I3: three integers (30_encoding.md rule R61). -/
def formatI3 (op : BitVec 4) (slots : List Slot) (f : Int → Int → Int → Instr) : Except DecodeError Instr :=
  match slots with
  | [.int a, .int b, .int c] => .ok (f a b c)
  | _ => .error (.malformedSlots op)

/-- Format I4: four integers (30_encoding.md rule R61). -/
def formatI4 (op : BitVec 4) (slots : List Slot) (f : Int → Int → Int → Int → Instr) :
    Except DecodeError Instr :=
  match slots with
  | [.int a, .int b, .int c, .int d] => .ok (f a b c d)
  | _ => .error (.malformedSlots op)

/-- Format W4: four word32 (30_encoding.md rule R61). -/
def formatW4 (op : BitVec 4) (slots : List Slot) (f : Word32 → Word32 → Word32 → Word32 → Instr) :
    Except DecodeError Instr :=
  match slots with
  | [.word a, .word b, .word c, .word d] => .ok (f a b c d)
  | _ => .error (.malformedSlots op)

/-- The opcode map of 30_encoding.md rule R62. A reserved OP is decided from OP alone, whatever its slots
(60_exceptions.md rules R195 and R198). -/
def decodeCommand (op : BitVec 4) (slots : List Slot) : Except DecodeError Instr :=
  match op.toNat with
  | 0x0 => formatS op slots .csum
  | 0x1 => formatI2 op slots .encDrive
  | 0x2 => formatI4 op slots .encRawMotors
  | 0x3 => formatI2 op slots .deriveMotor
  | 0x4 => formatW4 op slots .encDtpSi
  | 0x5 => formatN op slots .encResetYaw
  | 0x6 => formatN op slots .encCfgStream
  | 0x7 => formatN op slots .encStartStream
  | 0x8 => formatI3 op slots .encSetAllLeds
  | 0x9 => formatN op slots .encWake
  | 0xA => formatN op slots .encSleep
  | 0xB => formatS op slots .scan
  | 0xC => formatS op slots .deserLocator
  | 0xD => .ok .reservedD
  | 0xE => .ok .reservedE
  | _ => .ok .reservedF

/-- The kinds, in the order of 30_encoding.md rule R66. -/
def allKinds : List Kind :=
  [.drive, .rawMotors, .driveToPositionSI, .resetYaw, .configureStreaming, .startStreaming, .setAllLEDs, .wake, .sleep]

/-- The kind whose header word this is (30_encoding.md rule R66). -/
def kindOf? (header : BitVec 32) : Option Kind :=
  allKinds.find? fun k => wireHeader k == header

/-- Drive: speed, heading high, heading low, and a drive-flags byte that is 0x00 or 0x01 (30_encoding.md rule R67). -/
def readDrive : Bytes → Option Instr
  | [s, hi, lo, f] =>
    if f = reverseByte false then some (.wireDrive s (hi ++ lo) false)
    else if f = reverseByte true then some (.wireDrive s (hi ++ lo) true)
    else none
  | _ => none

/-- RawMotors: two pairs of mode and speed (30_encoding.md rule R67). -/
def readRawMotors : Bytes → Option Instr
  | [lm, ls, rm, rs] => some (.wireRawMotors lm ls rm rs)
  | _ => none

/-- One big-endian word and the bytes after it (00_scope.md rule R14). -/
def readWord : Bytes → Option (Word32 × Bytes)
  | b0 :: b1 :: b2 :: b3 :: rest => some (b0 ++ b1 ++ b2 ++ b3, rest)
  | _ => none

/-- DriveToPositionSI: four words, then one zero byte and nothing more (30_encoding.md rule R67). -/
def readDtp (payload : Bytes) : Option Instr := do
  let (yaw, p1) ← readWord payload
  let (x, p2) ← readWord p1
  let (y, p3) ← readWord p2
  let (speed, p4) ← readWord p3
  if p4 = [0x00#8] then some (.wireDriveToPositionSI yaw x y speed) else none

/-- A kind whose frame carries no operand byte. -/
def readEmpty (i : Instr) : Bytes → Option Instr
  | [] => some i
  | _ => none

/-- SetAllLEDs: one triple, repeated for every zone (30_encoding.md rule R67). -/
def readLeds (payload : Bytes) : Option Instr :=
  let r := byteAt payload 0
  let g := byteAt payload 1
  let b := byteAt payload 2
  if payload = ledPayload r g b then some (.wireSetAllLEDs r g b) else none

/-- Reads the payload bytes of a kind by the layout of 30_encoding.md rule R67. The payload of the two streaming kinds
is configuration, so their rows carry no operand byte. -/
def readPayload (k : Kind) (payload : Bytes) : Option Instr :=
  match k with
  | .drive => readDrive payload
  | .rawMotors => readRawMotors payload
  | .driveToPositionSI => readDtp payload
  | .resetYaw => readEmpty .wireResetYaw payload
  | .configureStreaming => readEmpty .wireConfigureStreaming payload
  | .startStreaming => readEmpty .wireStartStreaming payload
  | .setAllLEDs => readLeds payload
  | .wake => readEmpty .wireWake payload
  | .sleep => readEmpty .wireSleep payload

/-- An outbound wire row: the header word selects the kind, the payload gives the fields. -/
def decodeWireOut (header : BitVec 32) (payload : Bytes) : Except DecodeError Instr :=
  match kindOf? header with
  | none => .error (.unknownWireHeader header)
  | some k =>
    match readPayload k payload with
    | some i => if i.wellFormed then .ok i else .error (.badWirePayload k)
    | none => .error (.badWirePayload k)

/-- An inbound frame: a locator report by the match 8D xx xx xx 3D (30_encoding.md rule R70), and otherwise bytes
that a SCAN takes like any others, for no inbound content is illegal (30_encoding.md rule R71). -/
def decodeWireIn (frame : Bytes) : Instr :=
  match frame with
  | s :: b1 :: b2 :: b3 :: c :: rest =>
    if s = startMarker ∧ c = locCode then .wireLocatorReport b1 b2 b3 rest else .scan frame
  | _ => .scan frame

/-- The instruction a raw request stands for. -/
def decode : Request → Except DecodeError Instr
  | .command op slots => decodeCommand op slots
  | .wireOut header payload => decodeWireOut header payload
  | .wireIn frame => .ok (decodeWireIn frame)

/-- A byte sequence as a raw sequence slot. -/
def seqSlot (bs : Bytes) : Slot := .seq (bs.map fun b => (b.toNat : Int))

/-- The raw request of an instruction, from the same tables (30_encoding.md rules R61, R62, R66, R67 and R70). -/
def encode : Instr → Request
  | .csum s => .command 0x0#4 [seqSlot s]
  | .encDrive speed heading => .command 0x1#4 [.int speed, .int heading]
  | .encRawMotors lm ls rm rs => .command 0x2#4 [.int lm, .int ls, .int rm, .int rs]
  | .deriveMotor left right => .command 0x3#4 [.int left, .int right]
  | .encDtpSi yaw x y speed => .command 0x4#4 [.word yaw, .word x, .word y, .word speed]
  | .encResetYaw => .command 0x5#4 []
  | .encCfgStream => .command 0x6#4 []
  | .encStartStream => .command 0x7#4 []
  | .encSetAllLeds r g b => .command 0x8#4 [.int r, .int g, .int b]
  | .encWake => .command 0x9#4 []
  | .encSleep => .command 0xA#4 []
  | .scan chunk => .command 0xB#4 [seqSlot chunk]
  | .deserLocator frame => .command 0xC#4 [seqSlot frame]
  | .reservedD => .command 0xD#4 []
  | .reservedE => .command 0xE#4 []
  | .reservedF => .command 0xF#4 []
  | .wireDrive speed heading reverse => .wireOut (wireHeader .drive) (drivePayload speed heading reverse)
  | .wireRawMotors lm ls rm rs => .wireOut (wireHeader .rawMotors) (rawMotorsPayload lm ls rm rs)
  | .wireDriveToPositionSI yaw x y speed => .wireOut (wireHeader .driveToPositionSI) (dtpPayload yaw x y speed)
  | .wireResetYaw => .wireOut (wireHeader .resetYaw) []
  | .wireConfigureStreaming => .wireOut (wireHeader .configureStreaming) []
  | .wireStartStreaming => .wireOut (wireHeader .startStreaming) []
  | .wireSetAllLEDs r g b => .wireOut (wireHeader .setAllLEDs) (ledPayload r g b)
  | .wireWake => .wireOut (wireHeader .wake) []
  | .wireSleep => .wireOut (wireHeader .sleep) []
  | .wireLocatorReport b1 b2 b3 rest => .wireIn (locatorFrame b1 b2 b3 rest)

/-- Operand slots of zeros for an OP: integers and words 0, sequences empty (30_encoding.md rule R61). -/
def zeroSlots (op : Nat) : List Slot :=
  match op with
  | 0x0 => [.seq []]
  | 0x1 => [.int 0, .int 0]
  | 0x2 => [.int 0, .int 0, .int 0, .int 0]
  | 0x3 => [.int 0, .int 0]
  | 0x4 => [.word 0, .word 0, .word 0, .word 0]
  | 0x8 => [.int 0, .int 0, .int 0]
  | 0xB => [.seq []]
  | 0xC => [.seq []]
  | _ => []

/-- A payload of zeros as long as the kind's operand bytes (30_encoding.md rule R67). -/
def zeroPayload : Option Kind → Bytes
  | some .drive => List.replicate 4 0x00#8
  | some .rawMotors => List.replicate 4 0x00#8
  | some .driveToPositionSI => List.replicate 17 0x00#8
  | some .setAllLEDs => List.replicate 30 0x00#8
  | _ => []

/-- The raw request that a word of spec/opcode_table.json stands for, with operands of zeros: OP in bits 3:0 of one
byte; 32 bits are frame bytes 0 to 3 of an outbound row and 40 bits are frame bytes 0 to 4 of the inbound row, the
frame's first byte most significant as the table's notes say (log 15). -/
def tableRequest (nbits w : Nat) : Option Request :=
  if nbits ≤ 8 then
    if w < 16 then some (.command (BitVec.ofNat 4 w) (zeroSlots w)) else none
  else if nbits = 32 then
    if w < 2 ^ 32 then some (.wireOut (BitVec.ofNat 32 w) (zeroPayload (kindOf? (BitVec.ofNat 32 w)))) else none
  else if nbits = 40 then
    if w < 2 ^ 40 then
      some (.wireIn [BitVec.ofNat 8 (w / 2 ^ 32), BitVec.ofNat 8 (w / 2 ^ 24), BitVec.ofNat 8 (w / 2 ^ 16),
        BitVec.ofNat 8 (w / 2 ^ 8), BitVec.ofNat 8 w])
    else none
  else none

/-- The instruction the decoder reads from a table word (none where it refuses). -/
def decodeTableWord (nbits w : Nat) : Option Instr :=
  match tableRequest nbits w with
  | none => none
  | some r =>
    match decode r with
    | .ok i => some i
    | .error _ => none

end Sys2Proof
end

