-- ==== Sys2Proof/Machine/State.lean ====
section
/-! DEFINITION. The state of the block: TAIL, its configuration, the outputs of the latest request, the fault record,
and the host's events still to be taken (10_state.md rules R20 to R31; 60_exceptions.md rules R190 and R200). -/

namespace Sys2Proof.Machine

/-- STATUS with the info it records (60_exceptions.md rule R190). -/
inductive Status where
  | ok
  /-- The OP value. -/
  | illegalOp (op : BitVec 4)
  /-- The length of the frame. -/
  | shortLocator (len : Nat)
  /-- The length of the tail that did not fit. -/
  | tailOverflow (len : Nat)
  deriving DecidableEq, Repr

/-- A value in SCALED_FORMAT: binary64 bits, or an exact rational (43_payload_deserializer.md rule R173). -/
inductive Scaled where
  | binary64 (bits : BitVec 64)
  | exact (q : Rat)
  deriving DecidableEq, Repr

/-- RESULT (10_state.md rule R28). -/
inductive Result where
  | nodata
  | reading (xs ys : Scaled)
  deriving DecidableEq, Repr

/-- The outputs of the latest request; `none` is "absent" (10_state.md rule R28). -/
structure Outputs where
  status : Option Status
  frameOut : Option Bytes
  csumOut : Option Byte
  result : Option Result
  deriving DecidableEq, Repr

/-- Before any request completes every output is absent (10_state.md rule R31). -/
def Outputs.absent : Outputs := { status := none, frameOut := none, csumOut := none, result := none }

/-- What stops the machine for good. Nothing does: every fault status of the spec is returned and the block accepts the
next request (60_exceptions.md rules R199 and R200), so this type has no member and nobody raises one. Safe: nothing is
hidden behind it (log 10). -/
inductive Fault
  deriving DecidableEq, Repr

/-- Why the model gives a request no next state. -/
inductive Refusal where
  /-- Raised by exec's arm of an instruction with no meaning yet. Safe. -/
  | notModelled (mnemonic : String)
  /-- Raised by the fetch: the raw request is refused at the interface before any rule runs (30_encoding.md rule R63).
  Safe. -/
  | notARequest (why : DecodeError)
  /-- Raised by ENC_CFG_STREAM, ENC_START_STREAM and their wire rows while the payload is OPEN
  (70_reset_and_hazards.md rule R222). Safe. -/
  | openPayload (kind : Kind)
  /-- Raised by the fetch: the configuration breaks a legal value, so the instance is not conforming
  (10_state.md rule R26). Safe. -/
  | nonconformingInstance
  deriving DecidableEq, Repr

/-- The whole state. `cfg` is read-only to every request; `inbox` and `draws` are the model's own (log 1, log 5). -/
structure State where
  cfg : Config
  tail : Bytes
  out : Outputs
  faults : List Status
  inbox : List HostEvent
  draws : Nat
  deriving DecidableEq, Repr

/-- The block just after power-on (10_state.md rule R31; 70_reset_and_hazards.md rules R220 and R221). -/
def State.reset : State :=
  { cfg := defaultConfig, tail := [], out := Outputs.absent, faults := [], inbox := [], draws := 0 }

/-- What a step finds to do. -/
inductive Fetched where
  /-- The host has issued nothing. -/
  | idle
  /-- The host applies RESET; the state is the one with that event taken. -/
  | reset (s : State)
  /-- A request decodes to this instruction; the state is the one with that event taken. -/
  | run (i : Instr) (s : State)
  /-- The event or the instance is refused. -/
  | refused (r : Refusal)
  deriving DecidableEq, Repr

end Sys2Proof.Machine
end

