-- ==== Sys2Proof/Machine/Flags.lean ====
section
/-! DEFINITION. The block has no status flags and no condition codes (10_state.md rule R22). What a request leaves
behind instead is its STATUS byte (60_exceptions.md rule R190). -/

namespace Sys2Proof.Machine

/-- The code of a status (60_exceptions.md rule R190). -/
def Status.code : Status → Byte
  | .ok => 0x00#8
  | .illegalOp _ => 0x01#8
  | .shortLocator _ => 0x02#8
  | .tailOverflow _ => 0x03#8

/-- The info a status records (60_exceptions.md rule R190). -/
def Status.info : Status → Option Nat
  | .ok => none
  | .illegalOp op => some op.toNat
  | .shortLocator len => some len
  | .tailOverflow len => some len

/-- The STATUS byte a host reads, absent before a request completes (10_state.md rule R28). -/
def Outputs.statusByte (o : Outputs) : Option Byte := o.status.map Status.code

end Sys2Proof.Machine
end

