-- ==== Sys2Proof/Machine/Ops.lean ====
section
/-! DEFINITION. The operations the meanings share: the checksum, framing, returning outputs, raising a fault status,
RESET and the draw of an unspecified TAIL. -/

namespace Sys2Proof.Machine

/-- The checksum `cs(B) = (~sum(B)) mod 256`, with `~v = -v - 1` (40_checksum.md rule R91). -/
def cs (b : Bytes) : Byte := lo8 (-(byteSum b : Int) - 1)

/-- The checksummed bytes of a frame: FLAGS, DEVICE_ID, COMMAND_ID, SEQUENCE, payload (41_frame_encoder.md rule R100). -/
def frameBody (c : Config) (k : Kind) (payload : Bytes) : Bytes :=
  [flagsOf k, deviceIdOf k, commandIdOf k, seqOf c.seq k] ++ payload

/-- `BuildFrame(kind, PL)` (41_frame_encoder.md rule R100). -/
def buildFrame (c : Config) (k : Kind) (payload : Bytes) : Bytes :=
  [startMarker] ++ frameBody c k payload ++ [cs (frameBody c k payload), endMarker]

/-- A state with new outputs, all of the old ones gone (10_state.md rule R28). -/
def State.setOut (s : State) (o : Outputs) : State := { s with out := o }

/-- A state with a new TAIL. -/
def State.setTail (s : State) (t : Bytes) : State := { s with tail := t }

/-- A state with one more entry in the fault record (60_exceptions.md rule R200). -/
def State.record (s : State) (st : Status) : State := { s with faults := s.faults ++ [st] }

/-- A state with these events still to be taken. -/
def State.setInbox (s : State) (es : List HostEvent) : State := { s with inbox := es }

/-- A state with one more free TAIL drawn. -/
def State.countDraw (s : State) : State := { s with draws := s.draws + 1 }

/-- `Emit(F)`: status OK and FRAME_OUT (00_scope.md rule R15). -/
def emit (frame : Bytes) (s : State) : State :=
  s.setOut { Outputs.absent with status := some .ok, frameOut := some frame }

/-- Status OK and CSUM_OUT (40_checksum.md rule R90). -/
def answerCsum (b : Byte) (s : State) : State :=
  s.setOut { Outputs.absent with status := some .ok, csumOut := some b }

/-- Status OK and RESULT (10_state.md rule R28). -/
def answerResult (r : Result) (s : State) : State :=
  s.setOut { Outputs.absent with status := some .ok, result := some r }

/-- `raise <Fault>(info)`: the request ends with this status and no other output, and the status goes into the fault
record; nothing is saved, masked or transferred (60_exceptions.md rules R199 and R200). -/
def raiseStatus (st : Status) (s : State) : State :=
  (s.setOut { Outputs.absent with status := some st }).record st

/-- RESET: TAIL becomes empty and no outputs are pending; nothing else changes
(70_reset_and_hazards.md rules R220 and R221; log 9). -/
def resetBlock (s : State) : State := (s.setTail []).setOut Outputs.absent

/-- A sequence cut to the capacity of TAIL (10_state.md rule R24). -/
def capTail (c : Config) (t : Bytes) : Bytes :=
  match c.tailCap with
  | none => t
  | some n => t.take n

/-- TAIL becomes unspecified: the next free value, within TAIL's width (60_exceptions.md rule R196; log 5). -/
def drawTail (s : State) : State :=
  (s.setTail (capTail s.cfg (Free.tailAfterOverflow s.draws))).countDraw

/-- Builds and emits the frame of a kind (41_frame_encoder.md rule R100). -/
def emitFrame (k : Kind) (payload : Bytes) (s : State) : State := emit (buildFrame s.cfg k payload) s

/-- Builds and emits the frame of a kind whose payload is configuration, refused while it is OPEN
(41_frame_encoder.md rules R106 and R107; 70_reset_and_hazards.md rule R222). -/
def emitConfigured (k : Kind) (s : State) : Host.Outcome State Fault Refusal :=
  match streamPayload s.cfg k with
  | some payload => .next (emitFrame k payload s)
  | none => .refused (.openPayload k)

end Sys2Proof.Machine
end

