-- ==== Sys2Proof/Machine/Checksum.lean ====
section
/-! DEFINITION. CSUM (40_checksum.md). -/

namespace Sys2Proof.Machine

/-- CSUM: the checksum of the operand as it is given (40_checksum.md rule R90). -/
def execCsum (bytes : Bytes) (s : State) : Host.Outcome State Fault Refusal := .next (answerCsum (cs bytes) s)

end Sys2Proof.Machine
end

