-- ==== Sys2Proof/Machine/Float64.lean ====
section
/-! DEFINITION. IEEE-754 binary64: rounding a fraction to nearest, ties to even, and the value of a binary64 pattern
(43_payload_deserializer.md rule R173; log 13). -/

namespace Sys2Proof.Machine

/-- `n / d` rounded to the nearest integer, ties to even. -/
def roundHalfEven (n d : Nat) : Nat :=
  if 2 * (n % d) < d then n / d
  else if d < 2 * (n % d) then n / d + 1
  else n / d + (n / d) % 2

/-- Whether `n / d < 2 ^ k`. -/
def ltPow2 (n d : Nat) (k : Int) : Bool :=
  match k with
  | .ofNat j => decide (n < d * 2 ^ j)
  | .negSucc j => decide (n * 2 ^ (j + 1) < d)

/-- The largest `k` with `2 ^ k ≤ n / d`, for positive `n` and `d`. -/
def floorLog2 (n d : Nat) : Int :=
  let k : Int := (Nat.log2 n : Int) - (Nat.log2 d : Int)
  if ltPow2 n d k then k - 1 else k

/-- `n / d` in units of `2 ^ e`, rounded to nearest even. -/
def roundAtExponent (n d : Nat) (e : Int) : Nat :=
  match e with
  | .ofNat j => roundHalfEven n (d * 2 ^ j)
  | .negSucc j => roundHalfEven (n * 2 ^ (j + 1)) d

/-- The exponent of the last place of binary64 at the size of `n / d`: 52 below the leading bit, and never below
the subnormal limit. -/
def ulpExponent (n d : Nat) : Int := max (floorLog2 n d - 52) (-1074)

/-- The pattern of infinity, without its sign. -/
def infinityBits : Nat := 0x7FF * 2 ^ 52

/-- The pattern, without its sign, of the non-negative `n / d` rounded to nearest even. The sum carries a mantissa that
rounds up to 2 ^ 53 into the exponent field. -/
def magnitudeBits (n d : Nat) : Nat :=
  if n = 0 then 0
  else min ((ulpExponent n d + 1074).toNat * 2 ^ 52 + roundAtExponent n d (ulpExponent n d)) infinityBits

/-- The binary64 pattern of `num / den`, rounded once to nearest, ties to even; zero gives +0.0. -/
def roundBinary64 (num : Int) (den : Nat) : BitVec 64 :=
  BitVec.ofNat 64 (magnitudeBits num.natAbs den + if num < 0 then 2 ^ 63 else 0)

/-- The exponent field of a pattern. -/
def exponentField (b : BitVec 64) : Nat := b.toNat / 2 ^ 52 % 2 ^ 11

/-- The fraction field of a pattern. -/
def fractionField (b : BitVec 64) : Nat := b.toNat % 2 ^ 52

/-- The significand of a finite pattern: with its hidden bit unless subnormal. -/
def significand (b : BitVec 64) : Nat :=
  if exponentField b = 0 then fractionField b else 2 ^ 52 + fractionField b

/-- The significand with the sign of the pattern. -/
def signedSignificand (b : BitVec 64) : Int :=
  if b.toNat < 2 ^ 63 then (significand b : Int) else -(significand b : Int)

/-- The power of two that a finite pattern's significand counts: its value is the signed significand times `2` to
this. -/
def scaleExponent (b : BitVec 64) : Int := ((max (exponentField b) 1 : Nat) : Int) - 1075

/-- The product of a finite pattern's value with an integer, rounded once to nearest even. -/
def mulRound (b : BitVec 64) (m : Int) : BitVec 64 :=
  match scaleExponent b with
  | .ofNat j => roundBinary64 (signedSignificand b * m * 2 ^ j) 1
  | .negSucc j => roundBinary64 (signedSignificand b * m) (2 ^ (j + 1))

end Sys2Proof.Machine
end

