-- ==== Sys2Proof/Machine/Deserializer.lean ====
section
/-! DEFINITION. The payload deserializer (43_payload_deserializer.md). -/

namespace Sys2Proof.Machine

/-- `Raw(u)`: signed or unsigned by LOC_RAW_SIGNED (43_payload_deserializer.md rule R171). -/
def rawOf (c : Config) (u : Nat) : Int := if c.locRawSigned then sext32 u else (u : Int)

/-- `q(raw)`, the exact value of the linear map (43_payload_deserializer.md rule R172). -/
def exactRescale (raw : Int) : Rat := mkRat ((raw - scaleMid) * scaleRange) scaleDiv

/-- The quotient of the three-step binary64 map, rounded once (43_payload_deserializer.md rule R173). -/
def rescaleQuotient (raw : Int) : BitVec 64 := roundBinary64 (raw - scaleMid) scaleDiv

/-- The three-step binary64 map: exact difference, rounded quotient, rounded product
(43_payload_deserializer.md rule R173). -/
def binary64Rescale (raw : Int) : BitVec 64 := mulRound (rescaleQuotient raw) scaleRange

/-- `Rescale(raw)` in SCALED_FORMAT (43_payload_deserializer.md rule R173). -/
def rescale (c : Config) (raw : Int) : Scaled :=
  match c.scaledFormat with
  | .binary64 => .binary64 (binary64Rescale raw)
  | .exact => .exact (exactRescale raw)

/-- The length a frame needs to hold both integers (43_payload_deserializer.md rule R170). -/
def locatorLength (c : Config) : Nat := max c.locXOff c.locYOff + 4

/-- The pair of readings at the configured offsets (43_payload_deserializer.md rule R170). -/
def readingOf (c : Config) (frame : Bytes) : Result :=
  .reading (rescale c (rawOf c (u32be frame c.locXOff))) (rescale c (rawOf c (u32be frame c.locYOff)))

/-- `DecodeLocator(F)` as the end of a request: a reading, or E_SHORT_LOCATOR
(43_payload_deserializer.md rule R170; 60_exceptions.md rule R197). -/
def decodeLocator (frame : Bytes) (s : State) : State :=
  if locatorLength s.cfg > frame.length then raiseStatus (.shortLocator frame.length) s
  else answerResult (readingOf s.cfg frame) s

/-- DESER_LOCATOR (43_payload_deserializer.md rule R175). -/
def execDeserLocator (frame : Bytes) (s : State) : Host.Outcome State Fault Refusal := .next (decodeLocator frame s)

end Sys2Proof.Machine
end

