-- ==== Sys2Proof/Machine/Operands.lean ====
section
/-! DEFINITION. What the encoders do to their operands before packing them (41_frame_encoder.md rules R101 to R104). -/

namespace Sys2Proof.Machine

/-- `clamp(v, lo, hi)` (00_scope.md rule R13). -/
def clamp (v lo hi : Int) : Int := min (max v lo) hi

/-- Drive: the speed that is sent (41_frame_encoder.md rule R102). -/
def effSpeed (speed : Int) : Int := if speed < 0 then -speed else speed

/-- Drive: the heading that is sent, rotated and reduced on the reverse branch only
(41_frame_encoder.md rule R102). -/
def effHeading (speed heading : Int) : Int := if speed < 0 then (heading + 180) % 360 else heading

/-- Drive: whether the reverse flag is set (41_frame_encoder.md rule R102). -/
def revFlag (speed : Int) : Bool := decide (speed < 0)

/-- The heading field: `h mod 65536` (41_frame_encoder.md rule R101). -/
def headingField (h : Int) : BitVec 16 := BitVec.ofInt 16 h

/-- RawMotors: a mode outside {0, 1, 2} becomes OFF, tested before any truncation (41_frame_encoder.md rule R103). -/
def coerceMode (m : Int) : Int := if m = 0 ∨ m = 1 ∨ m = 2 then m else 0

/-- DERIVE_MOTOR: FORWARD for a value of 0 or more, else BACKWARD (41_frame_encoder.md rule R104). -/
def deriveMode (v : Int) : Int := if 0 ≤ v then 1 else 2

/-- DERIVE_MOTOR: the clamped magnitude (41_frame_encoder.md rule R104). -/
def deriveMagnitude (v : Int) : Int := |clamp v (-255) 255|

end Sys2Proof.Machine
end

