-- ==== Sys2Proof/Machine/Encoder.lean ====
section
/-! DEFINITION. The encoder requests (41_frame_encoder.md). None reads or writes TAIL and none raises a fault. -/

namespace Sys2Proof.Machine

/-- ENC_DRIVE (41_frame_encoder.md rule R101). -/
def execEncDrive (speed heading : Int) (s : State) : Host.Outcome State Fault Refusal :=
  .next (emitFrame .drive
    (drivePayload (lo8 (effSpeed speed)) (headingField (effHeading speed heading)) (revFlag speed)) s)

/-- The RawMotors frame of four integers, modes coerced and speeds truncated (41_frame_encoder.md rule R103). -/
def emitRawMotors (lm ls rm rs : Int) (s : State) : State :=
  emitFrame .rawMotors (rawMotorsPayload (lo8 (coerceMode lm)) (lo8 ls) (lo8 (coerceMode rm)) (lo8 rs)) s

/-- ENC_RAW_MOTORS (41_frame_encoder.md rule R103). -/
def execEncRawMotors (lm ls rm rs : Int) (s : State) : Host.Outcome State Fault Refusal :=
  .next (emitRawMotors lm ls rm rs s)

/-- DERIVE_MOTOR: derives both pairs, then encodes RawMotors (41_frame_encoder.md rule R104). -/
def execDeriveMotor (left right : Int) (s : State) : Host.Outcome State Fault Refusal :=
  .next (emitRawMotors (deriveMode left) (deriveMagnitude left) (deriveMode right) (deriveMagnitude right) s)

/-- ENC_DTP_SI: the words are copied bit-exact (41_frame_encoder.md rule R105). -/
def execEncDtpSi (yaw x y speed : Word32) (s : State) : Host.Outcome State Fault Refusal :=
  .next (emitFrame .driveToPositionSI (dtpPayload yaw x y speed) s)

/-- ENC_RESET_YAW (41_frame_encoder.md rule R109). -/
def execEncResetYaw (s : State) : Host.Outcome State Fault Refusal := .next (emitFrame .resetYaw [] s)

/-- ENC_CFG_STREAM (41_frame_encoder.md rule R106). -/
def execEncCfgStream (s : State) : Host.Outcome State Fault Refusal := emitConfigured .configureStreaming s

/-- ENC_START_STREAM (41_frame_encoder.md rule R107). -/
def execEncStartStream (s : State) : Host.Outcome State Fault Refusal := emitConfigured .startStreaming s

/-- ENC_SET_ALL_LEDS: each channel masked to its low 8 bits (41_frame_encoder.md rule R108). -/
def execEncSetAllLeds (red green blue : Int) (s : State) : Host.Outcome State Fault Refusal :=
  .next (emitFrame .setAllLEDs (ledPayload (lo8 red) (lo8 green) (lo8 blue)) s)

/-- ENC_WAKE (41_frame_encoder.md rule R110). -/
def execEncWake (s : State) : Host.Outcome State Fault Refusal := .next (emitFrame .wake [] s)

/-- ENC_SLEEP (41_frame_encoder.md rule R111). -/
def execEncSleep (s : State) : Host.Outcome State Fault Refusal := .next (emitFrame .sleep [] s)

end Sys2Proof.Machine
end

