-- ==== Sys2Proof/Machine/Reserved.lean ====
section
/-! DEFINITION. The reserved opcodes: E_ILLEGAL_OP with the OP value, no output, TAIL unchanged
(30_encoding.md rule R63; 60_exceptions.md rule R195). -/

namespace Sys2Proof.Machine

/-- OP 0xD (60_exceptions.md rule R195). -/
def execReservedD (s : State) : Host.Outcome State Fault Refusal := .next (raiseStatus (.illegalOp 0xD#4) s)

/-- OP 0xE (60_exceptions.md rule R195). -/
def execReservedE (s : State) : Host.Outcome State Fault Refusal := .next (raiseStatus (.illegalOp 0xE#4) s)

/-- OP 0xF (60_exceptions.md rule R195). -/
def execReservedF (s : State) : Host.Outcome State Fault Refusal := .next (raiseStatus (.illegalOp 0xF#4) s)

end Sys2Proof.Machine
end

