-- ==== Sys2Proof/Machine/Scanner.lean ====
section
/-! DEFINITION. The frame scanner (42_frame_scanner.md). -/

namespace Sys2Proof.Machine

/-- The first `k` with `i <= k < len(B)` and `B[k] = m` (42_frame_scanner.md rules R142 and R143). -/
def firstFrom (m : Byte) (i : Nat) (b : Bytes) : Option Nat := ((b.drop i).findIdx? (· == m)).map (i + ·)

/-- The loop of 42_frame_scanner.md rule R140, from cursor `i`, with the complete frames found so far, earliest first.
It answers all complete frames and the new tail. Each turn moves the cursor forward, so a bound of `len(B) + 1` turns
is never used up (rule R150; log 11). -/
def scanLoop : Nat → Bytes → Nat → List Bytes → List Bytes × Bytes
  | 0, _, _, found => (found, [])
  | turns + 1, b, i, found =>
    match firstFrom startMarker i b with
    | none => (found, [])
    | some st =>
      match firstFrom endMarker (st + 1) b with
      | none => (found, b.drop st)
      | some e => scanLoop turns b (e + 1) (found ++ [slice b st e])

/-- The complete frames of a working buffer and the tail it leaves (42_frame_scanner.md rules R141 to R144). -/
def scanBuffer (b : Bytes) : List Bytes × Bytes := scanLoop (b.length + 1) b 0 []

/-- `IsLocator(F)` (42_frame_scanner.md rule R147). -/
def isLocator (c : Config) (frame : Bytes) : Bool := frame[c.locRecogOff]? == some locCode

/-- Whether a tail is longer than TAIL_CAP (42_frame_scanner.md rule R145). -/
def overflows (c : Config) (t : Bytes) : Bool :=
  match c.tailCap with
  | none => false
  | some n => decide (n < t.length)

/-- Step 6: the result reflects the last complete frame of this request only (42_frame_scanner.md rule R148). -/
def reportLast (last : Option Bytes) (s : State) : State :=
  match last with
  | some frame => if isLocator s.cfg frame then decodeLocator frame s else answerResult .nodata s
  | none => answerResult .nodata s

/-- One SCAN of a chunk: segment TAIL ++ chunk, check the capacity, write TAIL, report
(42_frame_scanner.md rules R140 and R145; 60_exceptions.md rules R196 to R198). -/
def scanChunk (chunk : Bytes) (s : State) : State :=
  let found := scanBuffer (s.tail ++ chunk)
  if overflows s.cfg found.2 then raiseStatus (.tailOverflow found.2.length) (drawTail s)
  else reportLast found.1.getLast? (s.setTail found.2)

/-- SCAN (42_frame_scanner.md rule R140). -/
def execScan (chunk : Bytes) (s : State) : Host.Outcome State Fault Refusal := .next (scanChunk chunk s)

end Sys2Proof.Machine
end

