-- ==== Sys2Proof/Machine/Wire.lean ====
section
/-! DEFINITION. The wire rows of the opcode table. An outbound row is the framing of its kind with the payload fields of
30_encoding.md rule R67 (41_frame_encoder.md rule R100); the inbound row is a frame that a SCAN takes
(42_frame_scanner.md rule R147). DESIGN CHOICE, log 2. -/

namespace Sys2Proof.Machine

/-- WIRE_Drive (30_encoding.md rules R66 and R67; 41_frame_encoder.md rule R100). -/
def execWireDrive (speed : Byte) (heading : BitVec 16) (reverse : Bool) (s : State) :
    Host.Outcome State Fault Refusal :=
  .next (emitFrame .drive (drivePayload speed heading reverse) s)

/-- WIRE_RawMotors (30_encoding.md rules R66 and R67; 41_frame_encoder.md rule R100). -/
def execWireRawMotors (lm ls rm rs : Byte) (s : State) : Host.Outcome State Fault Refusal :=
  .next (emitFrame .rawMotors (rawMotorsPayload lm ls rm rs) s)

/-- WIRE_DriveToPositionSI (30_encoding.md rules R66 and R67; 41_frame_encoder.md rule R100). -/
def execWireDriveToPositionSI (yaw x y speed : Word32) (s : State) : Host.Outcome State Fault Refusal :=
  .next (emitFrame .driveToPositionSI (dtpPayload yaw x y speed) s)

/-- WIRE_ResetYaw (30_encoding.md rules R66 and R67; 41_frame_encoder.md rule R100). -/
def execWireResetYaw (s : State) : Host.Outcome State Fault Refusal := .next (emitFrame .resetYaw [] s)

/-- WIRE_ConfigureStreaming: its payload is configuration (30_encoding.md rule R67; 70_reset_and_hazards.md rule R222). -/
def execWireConfigureStreaming (s : State) : Host.Outcome State Fault Refusal := emitConfigured .configureStreaming s

/-- WIRE_StartStreaming: its payload is configuration (30_encoding.md rule R67; 70_reset_and_hazards.md rule R222). -/
def execWireStartStreaming (s : State) : Host.Outcome State Fault Refusal := emitConfigured .startStreaming s

/-- WIRE_SetAllLEDs (30_encoding.md rules R66 and R67; 41_frame_encoder.md rule R100). -/
def execWireSetAllLEDs (red green blue : Byte) (s : State) : Host.Outcome State Fault Refusal :=
  .next (emitFrame .setAllLEDs (ledPayload red green blue) s)

/-- WIRE_Wake (30_encoding.md rules R66 and R67; 41_frame_encoder.md rule R100). -/
def execWireWake (s : State) : Host.Outcome State Fault Refusal := .next (emitFrame .wake [] s)

/-- WIRE_Sleep (30_encoding.md rules R66 and R67; 41_frame_encoder.md rule R100). -/
def execWireSleep (s : State) : Host.Outcome State Fault Refusal := .next (emitFrame .sleep [] s)

/-- WIRE_LocatorReport: the frame reaches the block as the chunk of a SCAN (42_frame_scanner.md rules R140 and R147). -/
def execWireLocatorReport (b1 b2 b3 : Byte) (rest : Bytes) (s : State) : Host.Outcome State Fault Refusal :=
  .next (scanChunk (locatorFrame b1 b2 b3 rest) s)

end Sys2Proof.Machine
end

