-- ==== Sys2Proof/Machine/Dispatch.lean ====
section
/-! DEFINITION. One arm per instruction: the meaning of each row of spec/opcode_table.json. -/

namespace Sys2Proof.Machine

/-- Runs one instruction. -/
def exec (i : Instr) (s : State) : Host.Outcome State Fault Refusal :=
  match i with
  | .csum bytes => Sys2Proof.Machine.execCsum bytes s
  | .encDrive speed heading => Sys2Proof.Machine.execEncDrive speed heading s
  | .encRawMotors lm ls rm rs => Sys2Proof.Machine.execEncRawMotors lm ls rm rs s
  | .deriveMotor left right => Sys2Proof.Machine.execDeriveMotor left right s
  | .encDtpSi yaw x y speed => Sys2Proof.Machine.execEncDtpSi yaw x y speed s
  | .encResetYaw => Sys2Proof.Machine.execEncResetYaw s
  | .encCfgStream => Sys2Proof.Machine.execEncCfgStream s
  | .encStartStream => Sys2Proof.Machine.execEncStartStream s
  | .encSetAllLeds red green blue => Sys2Proof.Machine.execEncSetAllLeds red green blue s
  | .encWake => Sys2Proof.Machine.execEncWake s
  | .encSleep => Sys2Proof.Machine.execEncSleep s
  | .scan chunk => Sys2Proof.Machine.execScan chunk s
  | .deserLocator frame => Sys2Proof.Machine.execDeserLocator frame s
  | .reservedD => Sys2Proof.Machine.execReservedD s
  | .reservedE => Sys2Proof.Machine.execReservedE s
  | .reservedF => Sys2Proof.Machine.execReservedF s
  | .wireDrive speed heading reverse => Sys2Proof.Machine.execWireDrive speed heading reverse s
  | .wireRawMotors lm ls rm rs => Sys2Proof.Machine.execWireRawMotors lm ls rm rs s
  | .wireDriveToPositionSI yaw x y speed => Sys2Proof.Machine.execWireDriveToPositionSI yaw x y speed s
  | .wireResetYaw => Sys2Proof.Machine.execWireResetYaw s
  | .wireConfigureStreaming => Sys2Proof.Machine.execWireConfigureStreaming s
  | .wireStartStreaming => Sys2Proof.Machine.execWireStartStreaming s
  | .wireSetAllLEDs red green blue => Sys2Proof.Machine.execWireSetAllLEDs red green blue s
  | .wireWake => Sys2Proof.Machine.execWireWake s
  | .wireSleep => Sys2Proof.Machine.execWireSleep s
  | .wireLocatorReport b1 b2 b3 rest => Sys2Proof.Machine.execWireLocatorReport b1 b2 b3 rest s

end Sys2Proof.Machine
end

