-- ==== Sys2Proof/Machine/Fetch.lean ====
section
/-! DEFINITION. What a step finds to do: the host's earliest event (00_scope.md rule R8; 20_memory.md rule R49). -/

namespace Sys2Proof.Machine

/-- Takes the earliest event of the host. A nonconforming instance is refused first (10_state.md rule R26); a raw request
that is no instruction is refused at the interface (30_encoding.md rule R63). -/
def fetch (s : State) : Fetched :=
  if conforming s.cfg then
    match s.inbox with
    | [] => .idle
    | .reset :: rest => .reset (s.setInbox rest)
    | .request r :: rest =>
      match decode r with
      | .ok i => .run i (s.setInbox rest)
      | .error why => .refused (.notARequest why)
  else .refused .nonconformingInstance

/-- A state whose earliest event is this request. -/
def issueFirst (r : Request) (s : State) : State := s.setInbox (.request r :: s.inbox)

end Sys2Proof.Machine
end

