-- ==== Sys2Proof/Machine/Step.lean ====
section
/-! DEFINITION. One step of the block, and where a table word is put for the next step to run it. -/

namespace Sys2Proof.Machine

/-- One step: the host's earliest event, run to completion (00_scope.md rule R8). With no event the block waits
(DESIGN CHOICE, log 1). -/
def step (s : State) : Host.Outcome State Fault Refusal :=
  match fetch s with
  | .idle => .next s
  | .reset t => .next (resetBlock t)
  | .run i t => exec i t
  | .refused r => .refused r

/-- The state whose next step runs the instruction of this table word: its request becomes the earliest event (log 15). -/
def State.withFetchWord (s : State) (nbits w : Nat) : State :=
  match tableRequest nbits w with
  | some r => issueFirst r s
  | none => s

end Sys2Proof.Machine
end

