-- ==== Sys2Proof/Safety.lean ====
section
/-! DEFINITION. The terms the statements are made in: what a legal TAIL is, what a complete frame is, what rounding to
nearest even means, and the invariant of a run. Where a term restates a rule, it is written from the rule and not from
the machine's own function. -/

namespace Sys2Proof.Machine

/-- STATUS OK and FRAME_OUT, nothing else (10_state.md rule R28). -/
def okFrame (frame : Bytes) : Outputs := { status := some .ok, frameOut := some frame, csumOut := none, result := none }

/-- STATUS OK and CSUM_OUT, nothing else (10_state.md rule R28). -/
def okCsum (b : Byte) : Outputs := { status := some .ok, frameOut := none, csumOut := some b, result := none }

/-- STATUS OK and RESULT, nothing else (10_state.md rule R28). -/
def okResult (r : Result) : Outputs := { status := some .ok, frameOut := none, csumOut := none, result := some r }

/-- A status and no other output (60_exceptions.md rules R195 to R197). -/
def onlyStatus (st : Status) : Outputs := { status := some st, frameOut := none, csumOut := none, result := none }

/-- `0xFF - (sum(B) mod 256)`, the second form of 40_checksum.md rule R91. -/
def checksumByte (b : Bytes) : Byte := BitVec.ofNat 8 (255 - byteSum b % 256)

/-- The frame of 30_encoding.md rule R64 around a body: START, the body, its checksum, END. -/
def sealedFrame (body : Bytes) : Bytes := 0x8D#8 :: (body ++ [checksumByte body, 0xD8#8])

/-- The bytes of a 32-bit pattern, most significant first (20_memory.md rule R42). -/
def wordBytes (w : Word32) : Bytes :=
  [BitVec.ofNat 8 (w.toNat / 2 ^ 24), BitVec.ofNat 8 (w.toNat / 2 ^ 16), BitVec.ofNat 8 (w.toNat / 2 ^ 8),
    BitVec.ofNat 8 w.toNat]

/-- The kind of frame an encoder request emits (30_encoding.md rules R62 and R66). -/
def encoderKind : Instr → Option Kind
  | .encDrive _ _ => some .drive
  | .encRawMotors _ _ _ _ => some .rawMotors
  | .deriveMotor _ _ => some .rawMotors
  | .encDtpSi _ _ _ _ => some .driveToPositionSI
  | .encResetYaw => some .resetYaw
  | .encCfgStream => some .configureStreaming
  | .encStartStream => some .startStreaming
  | .encSetAllLeds _ _ _ => some .setAllLEDs
  | .encWake => some .wake
  | .encSleep => some .sleep
  | _ => none

/-- The kind of frame an instruction emits, be it an encoder request or an outbound wire row (30_encoding.md rules R62
and R66; the rows are log 2). -/
def frameKind : Instr → Option Kind
  | .csum _ => none
  | .encDrive _ _ => some .drive
  | .encRawMotors _ _ _ _ => some .rawMotors
  | .deriveMotor _ _ => some .rawMotors
  | .encDtpSi _ _ _ _ => some .driveToPositionSI
  | .encResetYaw => some .resetYaw
  | .encCfgStream => some .configureStreaming
  | .encStartStream => some .startStreaming
  | .encSetAllLeds _ _ _ => some .setAllLEDs
  | .encWake => some .wake
  | .encSleep => some .sleep
  | .scan _ => none
  | .deserLocator _ => none
  | .reservedD => none
  | .reservedE => none
  | .reservedF => none
  | .wireDrive _ _ _ => some .drive
  | .wireRawMotors _ _ _ _ => some .rawMotors
  | .wireDriveToPositionSI _ _ _ _ => some .driveToPositionSI
  | .wireResetYaw => some .resetYaw
  | .wireConfigureStreaming => some .configureStreaming
  | .wireStartStreaming => some .startStreaming
  | .wireSetAllLEDs _ _ _ => some .setAllLEDs
  | .wireWake => some .wake
  | .wireSleep => some .sleep
  | .wireLocatorReport _ _ _ _ => none

/-- The bytes an instruction gives a SCAN, if it is one (42_frame_scanner.md rule R140). -/
def scannedBytes : Instr → Option Bytes
  | .scan chunk => some chunk
  | .wireLocatorReport b1 b2 b3 rest => some (0x8D#8 :: b1 :: b2 :: b3 :: 0x3D#8 :: rest)
  | _ => none

/-- The payload a kind needs from the configuration is set (70_reset_and_hazards.md rule R222). -/
def payloadSet (c : Config) : Kind → Bool
  | .configureStreaming => c.cfgStreamPayload.isSome
  | .startStreaming => c.startStreamPayload.isSome
  | _ => true

/-- An instruction that emits a frame has its payload (70_reset_and_hazards.md rule R222). -/
def ready (c : Config) (i : Instr) : Bool :=
  match frameKind i with
  | some k => payloadSet c k
  | none => true

/-- P, the payload length of a kind (30_encoding.md rule R67). -/
def payloadLength (c : Config) : Kind → Nat
  | .drive => 4
  | .rawMotors => 4
  | .driveToPositionSI => 17
  | .resetYaw => 0
  | .configureStreaming => (c.cfgStreamPayload.getD []).length
  | .startStreaming => (c.startStreamPayload.getD []).length
  | .setAllLEDs => 30
  | .wake => 0
  | .sleep => 0

/-- The header bytes of a kind with its SEQ (30_encoding.md rule R66). -/
def headerBytes (c : Config) : Kind → Bytes
  | .drive => [0x01#8, 0x16#8, 0x07#8, c.seq.drive]
  | .rawMotors => [0x01#8, 0x16#8, 0x01#8, c.seq.rawMotors]
  | .driveToPositionSI => [0x06#8, 0x16#8, 0x38#8, c.seq.driveToPositionSI]
  | .resetYaw => [0x01#8, 0x16#8, 0x06#8, c.seq.resetYaw]
  | .configureStreaming => [0x02#8, 0x18#8, 0x39#8, c.seq.configureStreaming]
  | .startStreaming => [0x02#8, 0x18#8, 0x3A#8, c.seq.startStreaming]
  | .setAllLEDs => [0x01#8, 0x1A#8, 0x1A#8, c.seq.setAllLEDs]
  | .wake => [0x01#8, 0x13#8, 0x0D#8, c.seq.wake]
  | .sleep => [0x01#8, 0x13#8, 0x01#8, c.seq.sleep]

/-- The invariant of TAIL: empty, or a START followed by bytes none of which is END (10_state.md rule R25). -/
def TailMarked (t : Bytes) : Prop := t = [] ∨ ∃ rest : Bytes, t = 0x8D#8 :: rest ∧ 0xD8#8 ∉ rest

/-- The length bound of TAIL (10_state.md rule R24). -/
def TailFits (c : Config) (t : Bytes) : Prop := ∀ n, c.tailCap = some n → t.length ≤ n

/-- The segmentation of a working buffer, written as 42_frame_scanner.md rules R142 to R144 say it: the buffer, its
complete frames earliest first, and the new tail. `done` is step 5, `partialFrame` step 4, `frame` steps 2 and 3. -/
inductive Segments : Bytes → List Bytes → Bytes → Prop where
  | done (noise : Bytes) (h : 0x8D#8 ∉ noise) : Segments noise [] []
  | partialFrame (noise rest : Bytes) (hn : 0x8D#8 ∉ noise) (hr : 0xD8#8 ∉ rest) :
      Segments (noise ++ 0x8D#8 :: rest) [] (0x8D#8 :: rest)
  | frame (noise mid rest : Bytes) (frames : List Bytes) (tail : Bytes) (hn : 0x8D#8 ∉ noise) (hm : 0xD8#8 ∉ mid)
      (h : Segments rest frames tail) :
      Segments (noise ++ 0x8D#8 :: (mid ++ 0xD8#8 :: rest)) ((0x8D#8 :: (mid ++ [0xD8#8])) :: frames) tail

/-- A frame is a locator report (42_frame_scanner.md rule R147). -/
abbrev LocatorReport (c : Config) (frame : Bytes) : Prop := frame[c.locRecogOff]? = some 0x3D#8

/-- A frame holds both integers (43_payload_deserializer.md rule R170). -/
abbrev HoldsIntegers (c : Config) (frame : Bytes) : Prop :=
  c.locXOff + 4 ≤ frame.length ∧ c.locYOff + 4 ≤ frame.length

/-- The four bytes at an offset as one big-endian pattern (20_memory.md rule R42). -/
def wordAt (frame : Bytes) (o : Nat) : Word32 :=
  frame.getD o 0#8 ++ frame.getD (o + 1) 0#8 ++ frame.getD (o + 2) 0#8 ++ frame.getD (o + 3) 0#8

/-- The raw integer at an offset, signed or not (43_payload_deserializer.md rule R171). -/
def rawAt (c : Config) (frame : Bytes) (o : Nat) : Int :=
  if c.locRawSigned then (wordAt frame o).toInt else ((wordAt frame o).toNat : Int)

/-- The exact value of the linear map (43_payload_deserializer.md rule R172). -/
def linearMap (raw : Int) : Rat := ((raw : Rat) - 2147483647) * 16000 / 2147483647

/-- A reading in SCALED_FORMAT (43_payload_deserializer.md rules R172 and R173). -/
def scaledValue (c : Config) (raw : Int) : Scaled :=
  match c.scaledFormat with
  | .binary64 => .binary64 (binary64Rescale raw)
  | .exact => .exact (linearMap raw)

/-- The reading of a frame (43_payload_deserializer.md rule R170). -/
def frameReading (c : Config) (frame : Bytes) : Result :=
  .reading (scaledValue c (rawAt c frame c.locXOff)) (scaledValue c (rawAt c frame c.locYOff))

/-- A binary64 pattern that is no infinity and no NaN. -/
def finite64 (b : BitVec 64) : Bool := decide (b.toNat / 2 ^ 52 % 2 ^ 11 < 2047)

/-- The value of a finite binary64 pattern as IEEE-754 lays it out: sign in bit 63, exponent in bits 62 to 52 with bias
1023, fraction in bits 51 to 0; exponent 0 is the subnormals. -/
def value64 (b : BitVec 64) : Rat :=
  (if b.toNat < 2 ^ 63 then 1 else -1) *
    (if b.toNat / 2 ^ 52 % 2 ^ 11 = 0 then ((b.toNat % 2 ^ 52 : Nat) : Rat) * 2 ^ (-1074 : Int)
     else ((2 ^ 52 + b.toNat % 2 ^ 52 : Nat) : Rat) * 2 ^ (((b.toNat / 2 ^ 52 % 2 ^ 11 : Nat) : Int) - 1075))

/-- A finite pattern is the rounding of `q` to nearest, ties to even: no finite pattern is nearer, and where another value
is as near, this one's last bit is 0 (43_payload_deserializer.md rule R173). -/
def NearestEven (q : Rat) (b : BitVec 64) : Prop :=
  finite64 b = true ∧ ∀ c : BitVec 64, finite64 c = true →
    |value64 b - q| ≤ |value64 c - q| ∧
      (|value64 c - q| = |value64 b - q| → value64 c ≠ value64 b → b.toNat % 2 = 0)

/-- The operand slots match the format of an OP (30_encoding.md rules R61 to R63): formats N, S, I2, I3, I4, W4 by the
opcode map. -/
def slotsMatch (op : BitVec 4) (slots : List Slot) : Prop :=
  match op.toNat with
  | 0x0 => ∃ vs : List Int, slots = [.seq vs] ∧ ∀ v ∈ vs, 0 ≤ v ∧ v ≤ 255
  | 0x1 => ∃ a b : Int, slots = [.int a, .int b]
  | 0x2 => ∃ a b c d : Int, slots = [.int a, .int b, .int c, .int d]
  | 0x3 => ∃ a b : Int, slots = [.int a, .int b]
  | 0x4 => ∃ a b c d : Word32, slots = [.word a, .word b, .word c, .word d]
  | 0x8 => ∃ a b c : Int, slots = [.int a, .int b, .int c]
  | 0xB => ∃ vs : List Int, slots = [.seq vs] ∧ ∀ v ∈ vs, 0 ≤ v ∧ v ≤ 255
  | 0xC => ∃ vs : List Int, slots = [.seq vs] ∧ ∀ v ∈ vs, 0 ≤ v ∧ v ≤ 255
  | _ => slots = []

/-- The header word of a kind, frame bytes 0 to 3 read big-endian, from the table of 30_encoding.md rule R66. -/
def headerWord : Kind → BitVec 32
  | .drive => 0x8D011607#32
  | .rawMotors => 0x8D011601#32
  | .driveToPositionSI => 0x8D061638#32
  | .resetYaw => 0x8D011606#32
  | .configureStreaming => 0x8D021839#32
  | .startStreaming => 0x8D02183A#32
  | .setAllLEDs => 0x8D011A1A#32
  | .wake => 0x8D01130D#32
  | .sleep => 0x8D011301#32

/-- The payload bytes a wire row of a kind may carry: the layout of 30_encoding.md rule R67, with a reversed heading below
360 (41_frame_encoder.md rule R102) and modes 0 to 2 (rule R103). The payload of the two streaming kinds is configuration,
so their rows carry none (log 2). -/
def rowPayload : Kind → Bytes → Prop
  | .drive, p => ∃ speed high low : Byte, p = [speed, high, low, 0x00#8] ∨
      p = [speed, high, low, 0x01#8] ∧ high.toNat * 256 + low.toNat < 360
  | .rawMotors, p => ∃ lm ls rm rs : Byte, p = [lm, ls, rm, rs] ∧ lm.toNat ≤ 2 ∧ rm.toNat ≤ 2
  | .driveToPositionSI, p => p.length = 17 ∧ p[16]? = some 0x00#8
  | .setAllLEDs, p => p.length = 30 ∧
      ∀ z, z < 10 → p[3 * z]? = p[0]? ∧ p[3 * z + 1]? = p[1]? ∧ p[3 * z + 2]? = p[2]?
  | _, p => p = []

/-- Outputs of one shape of 10_state.md rule R28: none yet, an OK request with its one output, or a fault status. -/
def OutputsLegal (o : Outputs) : Prop :=
  o = Outputs.absent ∨ (∃ f, o = okFrame f) ∨ (∃ b, o = okCsum b) ∨ (∃ r, o = okResult r) ∨
    ∃ st, st ≠ Status.ok ∧ o = onlyStatus st

/-- No E_TAIL_OVERFLOW has been recorded. -/
def NoOverflowRecorded (s : State) : Prop := ∀ n, Status.tailOverflow n ∉ s.faults

/-- The invariant of every run: the instance is conforming (10_state.md rule R26), TAIL fits (rule R24), TAIL has the
marker form unless an overflow was recorded (rule R25), the fault record holds no OK (60_exceptions.md rule R200), the
outputs have a legal shape (10_state.md rule R28), and a fault status on show is the latest of the record. -/
structure RunInvariant (s : State) : Prop where
  conforms : conforming s.cfg = true
  fits : TailFits s.cfg s.tail
  marked : NoOverflowRecorded s → TailMarked s.tail
  recordFaults : Status.ok ∉ s.faults
  outputs : OutputsLegal s.out
  shown : ∀ st, s.out.status = some st → st ≠ Status.ok → s.faults.getLast? = some st

end Sys2Proof.Machine
end

