-- ==== Sys2Proof/Certificates/Slice0/Obligations.lean ====
section
/-! DEFINITION. The statements about the block. Each docstring names the rule of spec/ it formalises. A statement holds for
every configuration unless it names a parameter, and for every value of the free values. -/

open Sys2Proof Sys2Proof.Machine

/-! ### Checksum (40_checksum.md) -/

/-- Rule R90 with the second form of rule R91: CSUM answers 0xFF less the byte sum mod 256, and changes nothing else. -/
def Obligations.CsumAnswersComplementOfByteSum : Prop :=
  ∀ (bytes : Bytes) (s : State), exec (.csum bytes) s = .next { s with out := okCsum (checksumByte bytes) }

/-- Rule R91: both forms of the checksum are one function, the bitwise complement of the low 8 bits of the plain sum, and
so are the three spellings of rule R92, whose equality the spec derives there from R91 and R13. -/
def Obligations.ChecksumSpellingsAgree : Prop :=
  ∀ b : Bytes,
    ((cs b).toNat : Int) = (-((byteSum b : Int)) - 1) % 256 ∧
      ((cs b).toNat : Int) = ((-((byteSum b : Int) % 256) - 1) % 256) % 256 ∧
      ((cs b).toNat : Int) = ((-((byteSum b : Int)) - 1) % 256) % 256 ∧
      (cs b).toNat = 255 - byteSum b % 256 ∧ cs b = ~~~(BitVec.ofNat 8 (byteSum b))

/-- Rule R95, each of its properties: the checksum depends on the sum mod 256 alone, so reordering and zero bytes do not
matter; its values on short sequences; sum and checksum make 0xFF; one changed byte shows, two that cancel do not; every
value is taken. -/
def Obligations.ChecksumAlgebra : Prop :=
  (∀ a b : Bytes, byteSum a % 256 = byteSum b % 256 → cs a = cs b) ∧
    (∀ a b : Bytes, a.Perm b → cs a = cs b) ∧
    (∀ a b : Bytes, cs (a ++ 0x00#8 :: b) = cs (a ++ b)) ∧
    cs [] = 0xFF#8 ∧ (∀ x : Byte, (cs [x]).toNat = 255 - x.toNat) ∧
    (∀ b : Bytes, (byteSum b + (cs b).toNat) % 256 = 255) ∧
    (∀ (a b : Bytes) (x y : Byte), x ≠ y → cs (a ++ x :: b) ≠ cs (a ++ y :: b)) ∧
    (∀ (a b c : Bytes) (x y x' y' : Byte), x' + y' = x + y → cs (a ++ x' :: (b ++ y' :: c)) = cs (a ++ x :: (b ++ y :: c))) ∧
    ∀ v : Byte, ∃ b : Bytes, cs b = v

/-! ### Encoder (41_frame_encoder.md, 30_encoding.md) -/

/-- Rules R64, R65 and R66: every encoder request answers START, the header of its kind with its SEQ, a payload of the
kind's length, the checksum of all but START, and END, 7 + P bytes in all; nothing else of the state changes. -/
def Obligations.EncodersEmitTheWireLayout : Prop :=
  ∀ (i : Instr) (k : Kind) (s : State), encoderKind i = some k → ready s.cfg i = true →
    ∃ payload : Bytes, payload.length = payloadLength s.cfg k ∧
      (sealedFrame (headerBytes s.cfg k ++ payload)).length = 7 + payloadLength s.cfg k ∧
      exec i s = .next { s with out := okFrame (sealedFrame (headerBytes s.cfg k ++ payload)) }

/-- Rules R96 and R112: the emitted frame begins with START and ends with END, has length 7 + P, carries its header, its
checksum recomputes, and it depends on the operands and the configuration only. -/
def Obligations.EncodedFrameRecomputesItsChecksum : Prop :=
  ∀ (i : Instr) (k : Kind) (s : State), encoderKind i = some k → ready s.cfg i = true →
    ∃ f : Bytes, exec i s = .next { s with out := okFrame f } ∧
      f[0]? = some 0x8D#8 ∧ f[f.length - 1]? = some 0xD8#8 ∧ f.length = 7 + payloadLength s.cfg k ∧
      (f.drop 1).take 4 = headerBytes s.cfg k ∧
      f[f.length - 2]? = some (cs ((f.drop 1).take (f.length - 3))) ∧
      byteSum ((f.drop 1).take (f.length - 2)) % 256 = 255 ∧
      ∀ s' : State, s'.cfg = s.cfg → exec i s' = .next { s' with out := okFrame f }

/-- Rules R101 and R102: a negative speed is negated, its heading rotated by 180 and reduced mod 360, and the reverse flag
set; otherwise speed and heading go as they are. The speed is truncated to 8 bits, the heading sent mod 65536, high byte
first (the spec's decisions D5 to D8). -/
def Obligations.EncDriveSendsTransformedSpeedAndHeading : Prop :=
  ∀ (speed heading : Int) (s : State),
    let h : Int := (if speed < 0 then (heading + 180) % 360 else heading) % 65536
    exec (.encDrive speed heading) s = .next { s with
      out := okFrame (sealedFrame [0x01#8, 0x16#8, 0x07#8, s.cfg.seq.drive, BitVec.ofInt 8 |speed|,
        BitVec.ofInt 8 (h / 256), BitVec.ofInt 8 (h % 256), if speed < 0 then 0x01#8 else 0x00#8]) }

/-- Rule R102: a backward drive and the forward drive at the rotated heading differ in the drive-flags byte (and so in the
checksum) only. The flag as a byte of its own is the spec's decision D5, the floored mod for any heading its decision
D7. -/
def Obligations.ReversedDriveDiffersInFlagOnly : Prop :=
  ∀ (speed heading : Int) (s : State), 0 < speed →
    ∃ front : Bytes, front.length = 7 ∧
      exec (.encDrive (-speed) heading) s = .next { s with out := okFrame (sealedFrame (front ++ [0x01#8])) } ∧
      exec (.encDrive speed ((heading + 180) % 360)) s =
        .next { s with out := okFrame (sealedFrame (front ++ [0x00#8])) }

/-- Rule R103: a mode other than 0, 1 and 2 is sent as OFF, speeds are truncated to 8 bits (the spec's decisions D8
and D9). -/
def Obligations.EncRawMotorsCoercesModesTruncatesSpeeds : Prop :=
  ∀ (lm ls rm rs : Int) (s : State),
    exec (.encRawMotors lm ls rm rs) s = .next { s with
      out := okFrame (sealedFrame [0x01#8, 0x16#8, 0x01#8, s.cfg.seq.rawMotors,
        if lm = 1 then 0x01#8 else if lm = 2 then 0x02#8 else 0x00#8, BitVec.ofInt 8 (ls % 256),
        if rm = 1 then 0x01#8 else if rm = 2 then 0x02#8 else 0x00#8, BitVec.ofInt 8 (rs % 256)]) }

/-- Rule R104: the mode is FORWARD for 0 and above and BACKWARD below, never OFF, and the magnitude is clamped to 255,
never truncated (the payload order is the spec's decision D9). -/
def Obligations.DeriveMotorClampsAndTakesSign : Prop :=
  ∀ (left right : Int) (s : State),
    exec (.deriveMotor left right) s = .next { s with
      out := okFrame (sealedFrame [0x01#8, 0x16#8, 0x01#8, s.cfg.seq.rawMotors,
        if 0 ≤ left then 0x01#8 else 0x02#8, BitVec.ofNat 8 (min left.natAbs 255),
        if 0 ≤ right then 0x01#8 else 0x02#8, BitVec.ofNat 8 (min right.natAbs 255)]) }

/-- Rule R74: DERIVE_MOTOR is its expansion over ENC_RAW_MOTORS. -/
def Obligations.DeriveMotorIsItsExpansion : Prop :=
  ∀ (left right : Int) (s : State),
    exec (.deriveMotor left right) s =
      exec (.encRawMotors (if left ≥ 0 then 1 else 2) (min (max left (-255)) 255).natAbs
        (if right ≥ 0 then 1 else 2) (min (max right (-255)) 255).natAbs) s

/-- Rule R105: the four words go bit-exact, big-endian, in the order yawAngle, x, y, speed (the spec's
decision D10), then one zero byte. -/
def Obligations.EncDtpSiCopiesWordsBitExact : Prop :=
  ∀ (yaw x y speed : Word32) (s : State),
    exec (.encDtpSi yaw x y speed) s = .next { s with
      out := okFrame (sealedFrame ([0x06#8, 0x16#8, 0x38#8, s.cfg.seq.driveToPositionSI] ++ wordBytes yaw ++ wordBytes x ++
        wordBytes y ++ wordBytes speed ++ [0x00#8])) }

/-- Rules R67 and R105, with the byte order of rule R42 and the offsets of rule R45: the four floats of a
DriveToPositionSI frame stand big-endian at offsets 5, 9, 13 and 17, where they read back as they were given, before one
zero byte. Which float stands at which offset is the spec's decision D10. -/
def Obligations.DtpFloatsReadBackAtTheirOffsets : Prop :=
  ∀ (yaw x y speed : Word32) (s : State),
    ∃ f : Bytes, exec (.encDtpSi yaw x y speed) s = .next { s with out := okFrame f } ∧ f.length = 24 ∧
      wordAt f 5 = yaw ∧ wordAt f 9 = x ∧ wordAt f 13 = y ∧ wordAt f 17 = speed ∧ f[21]? = some 0x00#8

/-- Rule R108: each channel is masked to its low 8 bits, and the triple stands ten times with no prefix (the
spec's decisions D8 and D12). -/
def Obligations.EncSetAllLedsRepeatsMaskedTriple : Prop :=
  ∀ (red green blue : Int) (s : State),
    ∃ payload : Bytes,
      exec (.encSetAllLeds red green blue) s = .next { s with
        out := okFrame (sealedFrame ([0x01#8, 0x1A#8, 0x1A#8, s.cfg.seq.setAllLEDs] ++ payload)) } ∧
      payload.length = 30 ∧
      ∀ z, z < 10 → payload[3 * z]? = some (BitVec.ofInt 8 (red % 256)) ∧
        payload[3 * z + 1]? = some (BitVec.ofInt 8 (green % 256)) ∧
        payload[3 * z + 2]? = some (BitVec.ofInt 8 (blue % 256))

/-- Rules R109 to R111: the three zero-payload frames, whose checksum depends on SEQ alone. -/
def Obligations.ZeroPayloadFrames : Prop :=
  ∀ s : State,
    exec .encResetYaw s = .next { s with
      out := okFrame [0x8D#8, 0x01#8, 0x16#8, 0x06#8, s.cfg.seq.resetYaw,
        BitVec.ofNat 8 (0xFF - (0x1D + s.cfg.seq.resetYaw.toNat) % 256), 0xD8#8] } ∧
    exec .encWake s = .next { s with
      out := okFrame [0x8D#8, 0x01#8, 0x13#8, 0x0D#8, s.cfg.seq.wake,
        BitVec.ofNat 8 (0xFF - (0x21 + s.cfg.seq.wake.toNat) % 256), 0xD8#8] } ∧
    exec .encSleep s = .next { s with
      out := okFrame [0x8D#8, 0x01#8, 0x13#8, 0x01#8, s.cfg.seq.sleep,
        BitVec.ofNat 8 (0xFF - (0x15 + s.cfg.seq.sleep.toNat) % 256), 0xD8#8] }

/-- Rules R106 and R107: with its payload set, a streaming request answers that payload in its frame, with the checksum
the rule computes from it. -/
def Obligations.StreamRequestsEmitConfiguredPayload : Prop :=
  (∀ (s : State) (p : Bytes), s.cfg.cfgStreamPayload = some p →
    exec .encCfgStream s = .next { s with
      out := okFrame ([0x8D#8, 0x02#8, 0x18#8, 0x39#8, s.cfg.seq.configureStreaming] ++ p ++
        [BitVec.ofNat 8 (0xFF - (0x53 + s.cfg.seq.configureStreaming.toNat + byteSum p) % 256), 0xD8#8]) }) ∧
  ∀ (s : State) (p : Bytes), s.cfg.startStreamPayload = some p →
    exec .encStartStream s = .next { s with
      out := okFrame ([0x8D#8, 0x02#8, 0x18#8, 0x3A#8, s.cfg.seq.startStreaming] ++ p ++
        [BitVec.ofNat 8 (0xFF - (0x54 + s.cfg.seq.startStreaming.toNat + byteSum p) % 256), 0xD8#8]) }

/-- Rule R222 (the spec's decision D11): while a payload is OPEN, the request that needs it is refused, and so is its wire
row (log 2). -/
def Obligations.OpenPayloadIsRefused : Prop :=
  (∀ s : State, s.cfg.cfgStreamPayload = none →
    exec .encCfgStream s = .refused (.openPayload .configureStreaming) ∧
      exec .wireConfigureStreaming s = .refused (.openPayload .configureStreaming)) ∧
  ∀ s : State, s.cfg.startStreamPayload = none →
    exec .encStartStream s = .refused (.openPayload .startStreaming) ∧
      exec .wireStartStreaming s = .refused (.openPayload .startStreaming)

/-- Rules R66, R67 and R100 for the nine outbound wire rows (the model's choice of their meaning, log 2): each answers the
frame of its kind around its payload fields, or around its configuration payload. -/
def Obligations.WireRowsFrameTheirPayloadFields : Prop :=
  (∀ (speed : Byte) (heading : BitVec 16) (reverse : Bool) (s : State),
    exec (.wireDrive speed heading reverse) s = .next { s with
      out := okFrame (sealedFrame [0x01#8, 0x16#8, 0x07#8, s.cfg.seq.drive, speed,
        BitVec.ofNat 8 (heading.toNat / 256), BitVec.ofNat 8 (heading.toNat % 256),
        if reverse then 0x01#8 else 0x00#8]) }) ∧
  (∀ (lm ls rm rs : Byte) (s : State),
    exec (.wireRawMotors lm ls rm rs) s = .next { s with
      out := okFrame (sealedFrame [0x01#8, 0x16#8, 0x01#8, s.cfg.seq.rawMotors, lm, ls, rm, rs]) }) ∧
  (∀ (yaw x y speed : Word32) (s : State),
    exec (.wireDriveToPositionSI yaw x y speed) s = .next { s with
      out := okFrame (sealedFrame ([0x06#8, 0x16#8, 0x38#8, s.cfg.seq.driveToPositionSI] ++ wordBytes yaw ++ wordBytes x ++
        wordBytes y ++ wordBytes speed ++ [0x00#8])) }) ∧
  (∀ (red green blue : Byte) (s : State),
    exec (.wireSetAllLEDs red green blue) s = .next { s with
      out := okFrame (sealedFrame ([0x01#8, 0x1A#8, 0x1A#8, s.cfg.seq.setAllLEDs] ++
        [red, green, blue, red, green, blue, red, green, blue, red, green, blue, red, green, blue,
         red, green, blue, red, green, blue, red, green, blue, red, green, blue, red, green, blue])) }) ∧
  (∀ s : State,
    exec .wireResetYaw s = .next { s with
      out := okFrame (sealedFrame [0x01#8, 0x16#8, 0x06#8, s.cfg.seq.resetYaw]) } ∧
    exec .wireWake s = .next { s with out := okFrame (sealedFrame [0x01#8, 0x13#8, 0x0D#8, s.cfg.seq.wake]) } ∧
    exec .wireSleep s = .next { s with out := okFrame (sealedFrame [0x01#8, 0x13#8, 0x01#8, s.cfg.seq.sleep]) }) ∧
  (∀ (s : State) (p : Bytes), s.cfg.cfgStreamPayload = some p →
    exec .wireConfigureStreaming s = .next { s with
      out := okFrame (sealedFrame ([0x02#8, 0x18#8, 0x39#8, s.cfg.seq.configureStreaming] ++ p)) }) ∧
  ∀ (s : State) (p : Bytes), s.cfg.startStreamPayload = some p →
    exec .wireStartStreaming s = .next { s with
      out := okFrame (sealedFrame ([0x02#8, 0x18#8, 0x3A#8, s.cfg.seq.startStreaming] ++ p)) }

/-- Rules R64 and R66 (the model's choice of rows, log 2): a well-formed outbound wire row does exactly what some encoder
request does, so the rows add no frame an encoder could not produce. -/
def Obligations.WireRowsAreEncoderFrames : Prop :=
  ∀ (i : Instr) (k : Kind), i.wellFormed = true → frameKind i = some k →
    ∃ (op : BitVec 4) (slots : List Slot) (j : Instr), decode (.command op slots) = .ok j ∧
      encoderKind j = some k ∧ ∀ s : State, exec i s = exec j s

/-! ### Reserved opcodes (60_exceptions.md) -/

/-- Rule R195 (with the priority of rule R198): a reserved OP is decided from OP alone, whatever its slots. It answers
E_ILLEGAL_OP with the OP value and no output, TAIL is unchanged, and the status is recorded (the spec's decisions D3 and D21; the queue is log 1, the raw slots log 6). -/
def Obligations.ReservedOpcodeIsIllegal : Prop :=
  ∀ (op : BitVec 4) (slots : List Slot) (rest : List HostEvent) (s : State), 0xD ≤ op.toNat → conforming s.cfg = true →
    s.inbox = .request (.command op slots) :: rest →
    step s = .next { s with
      inbox := rest, out := onlyStatus (.illegalOp op), faults := s.faults ++ [.illegalOp op] } ∧
    (Status.illegalOp op).code = 0x01#8 ∧ (Status.illegalOp op).info = some op.toNat

/-- Rule R195 for the three reserved rows: STATUS 0x01 with the OP value, no other output, TAIL unchanged; the status is
recorded (rule R200; the spec's decisions D3 and D29). -/
def Obligations.ReservedRowsRaiseIllegalOp : Prop :=
  (∀ op : BitVec 4, (Status.illegalOp op).code = 0x01#8 ∧ (Status.illegalOp op).info = some op.toNat) ∧
  ∀ s : State,
    exec .reservedD s = .next { s with
      out := onlyStatus (.illegalOp 0xD#4), faults := s.faults ++ [.illegalOp 0xD#4] } ∧
    exec .reservedE s = .next { s with
      out := onlyStatus (.illegalOp 0xE#4), faults := s.faults ++ [.illegalOp 0xE#4] } ∧
    exec .reservedF s = .next { s with
      out := onlyStatus (.illegalOp 0xF#4), faults := s.faults ++ [.illegalOp 0xF#4] }

/-! ### Scanner (42_frame_scanner.md) -/

/-- Rules R142, R143 and R144: the frames found and the tail left are the segmentation those rules describe, and no other
answer is one. -/
def Obligations.ScanBufferIsTheSegmentation : Prop :=
  ∀ (b : Bytes) (frames : List Bytes) (tail : Bytes), Segments b frames tail ↔ scanBuffer b = (frames, tail)

/-- Rules R140, R145, R147, R148, R170 and R197: when the new tail fits, SCAN writes it and answers by the last complete
frame of this request alone. That a frame of four bytes is no report, and that a short report is a fault, are the spec's
decisions D13 and D17. -/
def Obligations.ScanReportsTheLastFrame : Prop :=
  ∀ (chunk : Bytes) (s : State) (frames : List Bytes) (tail : Bytes),
    Segments (s.tail ++ chunk) frames tail → TailFits s.cfg tail →
    (∀ frame, frames.getLast? = some frame → LocatorReport s.cfg frame → HoldsIntegers s.cfg frame →
      exec (.scan chunk) s = .next { s with tail := tail, out := okResult (frameReading s.cfg frame) }) ∧
    (∀ frame, frames.getLast? = some frame → LocatorReport s.cfg frame → ¬ HoldsIntegers s.cfg frame →
      exec (.scan chunk) s = .next { s with
        tail := tail, out := onlyStatus (.shortLocator frame.length),
        faults := s.faults ++ [.shortLocator frame.length] }) ∧
    ((∀ frame, frames.getLast? = some frame → ¬ LocatorReport s.cfg frame) →
      exec (.scan chunk) s = .next { s with tail := tail, out := okResult .nodata })

/-- Rule R196 (with the priority of rule R198): when the new tail is longer than a finite TAIL_CAP, SCAN answers
E_TAIL_OVERFLOW with that length and no RESULT whatever frame it found, and records it. Nothing is said of TAIL
afterwards (the spec's decision D18; that the run goes on is log 5). With an unbounded TAIL_CAP the status never
occurs. -/
def Obligations.TailOverflowIsReported : Prop :=
  (∀ (chunk : Bytes) (s : State) (frames : List Bytes) (tail : Bytes) (cap : Nat),
    Segments (s.tail ++ chunk) frames tail → s.cfg.tailCap = some cap → cap < tail.length →
    ∃ t : State, exec (.scan chunk) s = .next t ∧ t.out = onlyStatus (.tailOverflow tail.length) ∧
      t.faults = s.faults ++ [.tailOverflow tail.length] ∧ t.cfg = s.cfg ∧ t.inbox = s.inbox) ∧
  (∀ n, (Status.tailOverflow n).code = 0x03#8 ∧ (Status.tailOverflow n).info = some n) ∧
  ∀ (i : Instr) (s t : State), s.cfg.tailCap = none → exec i s = .next t →
    ∀ n, t.out.status ≠ some (.tailOverflow n)

/-- Rule R151: cutting a stream into two chunks changes neither the complete frames found nor the final tail, and the TAIL
register after two SCANs is that after one, under an unbounded TAIL_CAP. -/
def Obligations.ChunkingDoesNotChangeSegmentation : Prop :=
  (∀ t a b : Bytes,
    (scanBuffer (t ++ (a ++ b))).1 =
        (scanBuffer (t ++ a)).1 ++ (scanBuffer ((scanBuffer (t ++ a)).2 ++ b)).1 ∧
      (scanBuffer (t ++ (a ++ b))).2 = (scanBuffer ((scanBuffer (t ++ a)).2 ++ b)).2) ∧
  ∀ (s : State) (a b : Bytes), s.cfg.tailCap = none →
    ∃ t1 t2 t : State, exec (.scan a) s = .next t1 ∧ exec (.scan b) t1 = .next t2 ∧ exec (.scan (a ++ b)) s = .next t ∧
      t2.tail = t.tail

/-- Rule R146: once a START is committed, in this request or kept in TAIL, every byte up to the next END belongs to the
frame, a START among them too, and the bytes after that END are scanned on their own. Where no END follows, all of them are
kept. -/
def Obligations.ScannerCommitsToFirstStart : Prop :=
  ∀ kept upToEnd after : Bytes, 0xD8#8 ∉ kept → 0xD8#8 ∉ upToEnd →
    scanBuffer ((0x8D#8 :: kept) ++ (upToEnd ++ 0xD8#8 :: after)) =
        ((0x8D#8 :: (kept ++ upToEnd ++ [0xD8#8])) :: (scanBuffer after).1, (scanBuffer after).2) ∧
      scanBuffer ((0x8D#8 :: kept) ++ upToEnd) = ([], 0x8D#8 :: (kept ++ upToEnd))

/-- Rule R140, its corner cases on an empty chunk: a TAIL of the marker form that fits is kept unchanged, and the answer is
NODATA. -/
def Obligations.EmptyChunkKeepsTail : Prop :=
  ∀ s : State, TailMarked s.tail → TailFits s.cfg s.tail →
    exec (.scan []) s = .next { s with out := okResult .nodata }

/-- Rule R25: TAIL has the marker form after reset, and every step that leaves no E_TAIL_OVERFLOW on show keeps it. -/
def Obligations.TailMarkerFormIsKept : Prop :=
  TailMarked State.reset.tail ∧
    ∀ s t : State, TailMarked s.tail → step s = .next t → (∀ n, t.out.status ≠ some (.tailOverflow n)) →
      TailMarked t.tail

/-- Rules R112 and R224: an encoded frame with no END among its inner bytes is segmented as itself, and one with such a
byte is cut short there. -/
def Obligations.EncodedFrameScansWholeUnlessCut : Prop :=
  ∀ (i : Instr) (k : Kind) (s : State) (f : Bytes), frameKind i = some k →
    exec i s = .next { s with out := okFrame f } →
    (0xD8#8 ∉ (f.drop 1).take (f.length - 2) → scanBuffer f = ([f], [])) ∧
    (0xD8#8 ∈ (f.drop 1).take (f.length - 2) →
      ∃ front back : Bytes, f = front ++ back ∧ back ≠ [] ∧ (scanBuffer f).1.head? = some front)

/-! ### Deserializer (43_payload_deserializer.md) -/

/-- Rules R170, R171 and R175: a frame long enough for both integers gives their readings, any other E_SHORT_LOCATOR with
the frame's length; TAIL is unchanged (the spec's decisions D14, D15, D16 and D17 under their parameters). -/
def Obligations.DeserLocatorReadsOrFaults : Prop :=
  ∀ (frame : Bytes) (s : State),
    (HoldsIntegers s.cfg frame →
      exec (.deserLocator frame) s = .next { s with out := okResult (frameReading s.cfg frame) }) ∧
    (¬ HoldsIntegers s.cfg frame →
      exec (.deserLocator frame) s = .next { s with
        out := onlyStatus (.shortLocator frame.length), faults := s.faults ++ [.shortLocator frame.length] }) ∧
    (Status.shortLocator frame.length).code = 0x02#8

/-- Rule R171: the signed and the unsigned reading agree when the top bit is clear, and differ by 2 ^ 32 when it is
set. -/
def Obligations.SignedAndUnsignedRawReadings : Prop :=
  ∀ (c : Config) (frame : Bytes) (o : Nat),
    (c.locRawSigned = true → rawOf c (u32be frame o) = (wordAt frame o).toInt) ∧
    (c.locRawSigned = false → rawOf c (u32be frame o) = (wordAt frame o).toNat) ∧
    ((wordAt frame o).toNat < 2 ^ 31 → (wordAt frame o).toInt = (wordAt frame o).toNat) ∧
    (2 ^ 31 ≤ (wordAt frame o).toNat → (wordAt frame o).toInt = ((wordAt frame o).toNat : Int) - 2 ^ 32)

/-- Rule R172: the exact map, its fixed points, its range over signed and unsigned inputs, and that it is strictly
increasing. -/
def Obligations.ExactRescaleIsTheLinearMap : Prop :=
  (∀ raw : Int, exactRescale raw = ((raw : Rat) - 2147483647) * 16000 / 2147483647) ∧
    exactRescale 2147483647 = 0 ∧ exactRescale 0 = -16000 ∧ exactRescale (-2147483647) = -32000 ∧
    (∀ raw : Int, -2147483648 ≤ raw → raw ≤ 2147483647 →
      -68719476720000 / 2147483647 ≤ exactRescale raw ∧ exactRescale raw ≤ 0) ∧
    (∀ raw : Int, 0 ≤ raw → raw ≤ 4294967295 →
      -16000 ≤ exactRescale raw ∧ exactRescale raw ≤ 34359738368000 / 2147483647) ∧
    ∀ a b : Int, a < b → exactRescale a < exactRescale b

/-- Rule R173: over every raw value a locator integer can have, the binary64 result is the exact difference divided and
then multiplied, each rounded to nearest even; it is finite, and it is zero for one raw value only, as +0.0 (the spec's
decision D16). -/
def Obligations.Binary64RescaleRoundsTwiceToNearestEven : Prop :=
  ∀ raw : Int, -2147483648 ≤ raw → raw ≤ 4294967295 →
    NearestEven (((raw : Rat) - 2147483647) / 2147483647) (rescaleQuotient raw) ∧
      NearestEven (value64 (rescaleQuotient raw) * 16000) (binary64Rescale raw) ∧
      (value64 (binary64Rescale raw) = 0 ↔ raw = 2147483647) ∧
      (raw = 2147483647 → binary64Rescale raw = 0x0000000000000000#64)

/-- Rule R174 and the example of rule R173: raw 2147483647 gives 0.0, raw 0 gives exactly -16000.0, and raw 1132903364
gives the three-step result and not the single rounding (the spec's decision D16; the rounding is log 13). -/
def Obligations.RescaleExamples : Prop :=
  value64 (binary64Rescale 2147483647) = 0 ∧ value64 (binary64Rescale 0) = -16000 ∧
    binary64Rescale 1132903364 = 0xC0BD8736510A0E6C#64

/-- Rules R149 and R175: a reading depends on the frame's length and its eight integer bytes only; no checksum, marker or
recognition byte is looked at. -/
def Obligations.DeserLocatorIgnoresOtherBytes : Prop :=
  ∀ (f g : Bytes) (s : State), f.length = g.length →
    (∀ j, j < 4 → f[s.cfg.locXOff + j]? = g[s.cfg.locXOff + j]? ∧ f[s.cfg.locYOff + j]? = g[s.cfg.locYOff + j]?) →
    exec (.deserLocator f) s = exec (.deserLocator g) s

/-! ### Reset and step (70_reset_and_hazards.md, 00_scope.md) -/

/-- Rules R31 and R221 (the spec's decision D19): after reset TAIL is empty and every output is absent. -/
def Obligations.ResetState : Prop :=
  State.reset.tail = [] ∧ State.reset.out = { status := none, frameOut := none, csumOut := none, result := none }

/-- Each parameter with a default in rule R10 holds it at reset, and the fault record and the host's queue are empty (the
model's choice of the instance and of the queue, logs 1 and 3). -/
def Obligations.ResetConfiguration : Prop :=
  conforming State.reset.cfg = true ∧ State.reset.cfg.locRecogOff = 4 ∧ State.reset.cfg.locXOff = 5 ∧
    State.reset.cfg.locYOff = 9 ∧ State.reset.cfg.locRawSigned = true ∧
    State.reset.cfg.scaledFormat = .binary64 ∧ State.reset.cfg.tailCap = none ∧
    (∀ k : Kind, seqOf State.reset.cfg.seq k = 0x00#8) ∧ State.reset.faults = [] ∧ State.reset.inbox = []

/-- Rule R220 (what RESET does to the outputs and the record is log 9): the RESET event empties TAIL whatever it was, an
unspecified one too, and leaves configuration and fault record. -/
def Obligations.ResetEventEmptiesTail : Prop :=
  ∀ (s : State) (rest : List HostEvent), conforming s.cfg = true → s.inbox = .reset :: rest →
    step s = .next { s with
      inbox := rest, tail := [], out := { status := none, frameOut := none, csumOut := none, result := none } }

/-- A step runs the instruction the host's earliest request decodes to, to completion, with that event taken (rules R8 and
R49; the queue is log 1). -/
def Obligations.StepRunsTheDecodedRequest : Prop :=
  ∀ (s : State) (r : Request) (rest : List HostEvent) (i : Instr), conforming s.cfg = true →
    s.inbox = .request r :: rest → decode r = .ok i → step s = exec i { s with inbox := rest }

/-- An instance is conforming exactly when it keeps every legal value of rule R26. With no event it steps to itself (the
model's choice, log 1); a nonconforming one is refused (log 3). -/
def Obligations.IdleAndNonconformingSteps : Prop :=
  (∀ c : Config, conforming c = true ↔
    1 ≤ c.locRecogOff ∧ 1 ≤ c.locXOff ∧ 1 ≤ c.locYOff ∧ ∀ n, c.tailCap = some n → 1 ≤ n) ∧
  (∀ s : State, conforming s.cfg = true → s.inbox = [] → step s = .next s) ∧
  ∀ s : State, conforming s.cfg = false → step s = .refused .nonconformingInstance

/-- A table word put where the next step fetches runs as the instruction the decoder reads from it (log 15). -/
def Obligations.FetchWordRunsFirst : Prop :=
  ∀ (s : State) (nbits w : Nat) (i : Instr), conforming s.cfg = true → decodeTableWord nbits w = some i →
    step (s.withFetchWord nbits w) = exec i s

/-! ### Decoding (30_encoding.md) -/

/-- Rules R60 to R63: a command request is an instruction exactly when its OP is reserved or its slots match the format of
its OP, and a malformed one is refused before any rule runs (log 6). -/
def Obligations.MalformedRequestsAreRefused : Prop :=
  (∀ (op : BitVec 4) (slots : List Slot),
    (∃ i : Instr, decode (.command op slots) = .ok i) ↔ (0xD ≤ op.toNat ∨ slotsMatch op slots)) ∧
  ∀ (op : BitVec 4) (slots : List Slot) (s : State) (rest : List HostEvent), op.toNat < 0xD → ¬ slotsMatch op slots →
    conforming s.cfg = true → s.inbox = .request (.command op slots) :: rest →
    step s = .refused (.notARequest (.malformedSlots op))

/-- Rules R66 and R67 (the model's choice of rows, log 2): an outbound wire request is an instruction exactly when its header
is that of a kind and its payload one that the kind's encoder produces; any other is refused by the step that takes it,
under the name of what is wrong. -/
def Obligations.WireRequestsDecodeByTheirLayout : Prop :=
  (∀ (header : BitVec 32) (payload : Bytes),
    (∃ i : Instr, decode (.wireOut header payload) = .ok i) ↔ ∃ k, header = headerWord k ∧ rowPayload k payload) ∧
  ∀ (header : BitVec 32) (payload : Bytes) (s : State) (rest : List HostEvent), conforming s.cfg = true →
    s.inbox = .request (.wireOut header payload) :: rest →
    ((∀ k, header ≠ headerWord k) → step s = .refused (.notARequest (.unknownWireHeader header))) ∧
      ∀ k, header = headerWord k → ¬ rowPayload k payload → step s = .refused (.notARequest (.badWirePayload k))

/-- Decoding the encoding of a well-formed instruction gives it back, operands and all. -/
def Obligations.DecodeOfEncode : Prop := ∀ i : Instr, i.wellFormed = true → decode (encode i) = .ok i

/-- A command request with a defined OP has one meaning: encoding what it decodes to gives the request back, so no operand
is dropped, extended or reordered (rule R61). -/
def Obligations.EncodeOfDecodedCommand : Prop :=
  ∀ (op : BitVec 4) (slots : List Slot) (i : Instr), op.toNat < 0xD → decode (.command op slots) = .ok i →
    encode i = .command op slots

/-- An outbound wire row that decodes is the encoding of what it decodes to (rules R66 and R67). -/
def Obligations.EncodeOfDecodedWireRow : Prop :=
  ∀ (header : BitVec 32) (payload : Bytes) (i : Instr), decode (.wireOut header payload) = .ok i →
    encode i = .wireOut header payload

/-- The decoder answers well-formed instructions only. Only an outbound wire row can be ill formed, and that such a row is
refused is the model's choice (log 2). -/
def Obligations.DecodedInstructionsAreWellFormed : Prop :=
  ∀ (r : Request) (i : Instr), decode r = .ok i → i.wellFormed = true

/-- Rules R70 and R71: an inbound frame is the locator row exactly when it begins with START and its byte at offset 4 is
0x3D, and whatever it is, running it is a SCAN of its bytes. -/
def Obligations.InboundFrameIsScanned : Prop :=
  ∀ (frame : Bytes),
    ((∃ b1 b2 b3 rest, decode (.wireIn frame) = .ok (.wireLocatorReport b1 b2 b3 rest)) ↔
      (frame[0]? = some 0x8D#8 ∧ frame[4]? = some 0x3D#8)) ∧
    ∃ i : Instr, decode (.wireIn frame) = .ok i ∧ ∀ s : State, exec i s = exec (.scan frame) s

/-- The inbound locator row, with the meaning of log 2, answers its reading: a report that arrives whole on an empty TAIL,
recognized at the default offset, with no END before its last byte and long enough for both integers. -/
def Obligations.LocatorRowReportsItsReading : Prop :=
  ∀ (b1 b2 b3 : Byte) (rest : Bytes) (s : State), s.tail = [] → s.cfg.locRecogOff = 4 →
    0xD8#8 ∉ b1 :: b2 :: b3 :: rest → HoldsIntegers s.cfg (0x8D#8 :: b1 :: b2 :: b3 :: 0x3D#8 :: (rest ++ [0xD8#8])) →
    exec (.wireLocatorReport b1 b2 b3 (rest ++ [0xD8#8])) s = .next { s with
      out := okResult (frameReading s.cfg (0x8D#8 :: b1 :: b2 :: b3 :: 0x3D#8 :: (rest ++ [0xD8#8]))) }

/-- Rules R62, R66 and R70: words of the opcode table, written out, decode to the rows they stand for. How a word's bits
are numbered and that operands are zeros is log 15. -/
def Obligations.TableWordsDecode : Prop :=
  decodeTableWord 8 0x0 = some (.csum []) ∧ decodeTableWord 8 0x1 = some (.encDrive 0 0) ∧
    decodeTableWord 8 0xB = some (.scan []) ∧ decodeTableWord 8 0xC = some (.deserLocator []) ∧
    decodeTableWord 8 0xD = some .reservedD ∧ decodeTableWord 32 0x8D011607 = some (.wireDrive 0x00#8 0x0000#16 false) ∧
    decodeTableWord 32 0x8D02183A = some .wireStartStreaming ∧
    decodeTableWord 40 0x8D0000003D = some (.wireLocatorReport 0x00#8 0x00#8 0x00#8 [])

/-! ### The whole machine -/

/-- Rules R8 and R150: every request runs to completion, from every state, once the configuration payload it needs is set;
it leaves the configuration and the host's further events alone. -/
def Obligations.EveryRequestCompletes : Prop :=
  ∀ (i : Instr) (s : State), ready s.cfg i = true →
    ∃ t : State, exec i s = .next t ∧ t.cfg = s.cfg ∧ t.inbox = s.inbox ∧ t.out.status.isSome = true

/-- Rules R24 and R47: a request that is no SCAN changes nothing but its outputs and the fault record: TAIL is as
before. -/
def Obligations.OnlyScanTouchesTail : Prop :=
  ∀ (i : Instr) (s t : State), scannedBytes i = none → exec i s = .next t →
    t = { s with out := t.out, faults := t.faults }

/-- Rule R47: a request that is no SCAN gives the same outputs in any two states of one configuration, whatever TAIL,
earlier outputs or fault record they hold. -/
def Obligations.OutputsDependOnOperandsOnly : Prop :=
  ∀ (i : Instr) (s1 s2 : State), scannedBytes i = none → s1.cfg = s2.cfg → ready s1.cfg i = true →
    ∃ t1 t2 : State, exec i s1 = .next t1 ∧ exec i s2 = .next t2 ∧ t1.out = t2.out

/-- Rule R29: TAIL shows only through later SCANs, which see it joined with their chunk: two states that differ in TAIL
alone answer alike on chunks that make the joined bytes the same, and end alike unless TAIL overflowed (then TAIL is
unspecified, log 5). -/
def Obligations.ScanSeesTailAndChunkJoined : Prop :=
  ∀ (s : State) (t a b : Bytes), s.tail ++ a = t ++ b →
    ∃ u v : State, exec (.scan a) s = .next u ∧ exec (.scan b) { s with tail := t } = .next v ∧
      u.out = v.out ∧ u.faults = v.faults ∧ ((∀ n, u.out.status ≠ some (.tailOverflow n)) → u = v)

/-- Rule R28: which outputs a completed request returns, and that none of an earlier request's is left. -/
def Obligations.OutputsPresentByRequest : Prop :=
  ∀ (i : Instr) (s t : State), exec i s = .next t →
    (t.out.frameOut.isSome = true ↔ (frameKind i).isSome = true ∧ t.out.status = some .ok) ∧
    (t.out.csumOut.isSome = true ↔ (∃ b, i = .csum b) ∧ t.out.status = some .ok) ∧
    (t.out.result.isSome = true ↔
      ((scannedBytes i).isSome = true ∨ ∃ f, i = .deserLocator f) ∧ t.out.status = some .ok) ∧
    ((∃ f, i = .deserLocator f) → t.out.result ≠ some .nodata)

/-- Rule R190 (codes and names are the spec's decision D20): the four statuses with their codes and infos; a completed
request shows one of them, whose code is its STATUS byte; and which request can raise which. -/
def Obligations.StatusByRequest : Prop :=
  (Status.ok.code = 0x00#8 ∧ Status.ok.info = none) ∧
  (∀ op, (Status.illegalOp op).code = 0x01#8 ∧ (Status.illegalOp op).info = some op.toNat) ∧
  (∀ n, (Status.shortLocator n).code = 0x02#8 ∧ (Status.shortLocator n).info = some n) ∧
  (∀ n, (Status.tailOverflow n).code = 0x03#8 ∧ (Status.tailOverflow n).info = some n) ∧
  ∀ (i : Instr) (s t : State), exec i s = .next t →
    ∃ st : Status, t.out.status = some st ∧ t.out.statusByte = some st.code ∧ st.code.toNat ≤ 3 ∧
      (∀ op, st = .illegalOp op ↔
        (i = .reservedD ∧ op = 0xD#4 ∨ i = .reservedE ∧ op = 0xE#4 ∨ i = .reservedF ∧ op = 0xF#4)) ∧
      (∀ n, st = .shortLocator n → (scannedBytes i).isSome = true ∨ ∃ f, i = .deserLocator f) ∧
      ∀ n, st = .tailOverflow n → (scannedBytes i).isSome = true

/-- Rule R200: a step leaves the fault record alone or adds the one non-OK status it answers; nothing clears an entry,
RESET neither. -/
def Obligations.FaultRecordOnlyGrows : Prop :=
  ∀ s t : State, step s = .next t →
    t.faults = s.faults ∨ ∃ st : Status, st ≠ .ok ∧ t.out.status = some st ∧ t.faults = s.faults ++ [st]

/-- Rule R26: no step writes a configuration field. -/
def Obligations.ConfigurationNeverChanges : Prop := ∀ s t : State, step s = .next t → t.cfg = s.cfg

/-- Rule R49: a step takes the host's earliest event and no other. -/
def Obligations.StepTakesEventsInOrder : Prop := ∀ s t : State, step s = .next t → t.inbox = s.inbox.drop 1

/-- Every step keeps the invariant: a conforming instance (R26), TAIL within its capacity (R24), TAIL of the marker form
unless an overflow was recorded (R25), a record of faults only (R200), outputs of a legal shape (R28). That TAIL stays
within its capacity after an overflow is log 5, that outputs stand between requests log 12. -/
def Obligations.StepKeepsTheInvariant : Prop := ∀ s t : State, RunInvariant s → step s = .next t → RunInvariant t

/-- The invariant holds after reset. -/
def Obligations.ResetMeetsTheInvariant : Prop := RunInvariant State.reset
end

