-- ==== Sys2Proof/Laws/Decode.lean ====
section
/-! SUPPORT. The small lemmas of the decoder: sequence slots and big-endian fields read back what was packed, and the
header words are told apart. -/

namespace Sys2Proof

open Machine

/-- A byte in an integer slot reads back. -/
@[simp] theorem byteOf?_toNat (b : Byte) : byteOf? (b.toNat : Int) = some b := by
  have h : b.toNat < 256 := b.isLt
  unfold byteOf?
  rw [if_pos (by omega)]
  congr 1
  apply BitVec.eq_of_toNat_eq
  simp

/-- A byte sequence in a sequence slot reads back. -/
@[simp] theorem bytesOf?_map_toNat (bs : Bytes) : bytesOf? (bs.map fun b => (b.toNat : Int)) = some bs := by
  induction bs with
  | nil => rfl
  | cons b bs ih => simp [bytesOf?, ih]

/-- The format S reads a sequence slot back. -/
@[simp] theorem formatS_seqSlot (op : BitVec 4) (bs : Bytes) (f : Bytes → Instr) :
    formatS op [seqSlot bs] f = .ok (f bs) := by
  simp [formatS, seqSlot]

/-- The two bytes of a heading, put together again. -/
theorem append_be16 (v : BitVec 16) : (v.extractLsb' 8 8 ++ v.extractLsb' 0 8 : BitVec 16) = v := by
  ext i hi
  simp only [BitVec.getElem_append, BitVec.getElem_extractLsb']
  split
  · simpa using BitVec.getLsbD_eq_getElem hi
  · have h : 8 + (i - 8) = i := by omega
    rw [h]
    exact BitVec.getLsbD_eq_getElem hi

/-- The four bytes of a word, put together again. -/
theorem append_be32 (w : Word32) :
    (w.extractLsb' 24 8 ++ w.extractLsb' 16 8 ++ w.extractLsb' 8 8 ++ w.extractLsb' 0 8 : BitVec 32) = w := by
  ext i hi
  simp only [BitVec.getElem_append, BitVec.getElem_extractLsb']
  split
  · simpa using BitVec.getLsbD_eq_getElem hi
  · split
    · have h : 8 + (i - 8) = i := by omega
      rw [h]
      exact BitVec.getLsbD_eq_getElem hi
    · split
      · have h : 16 + (i - 8 - 8) = i := by omega
        rw [h]
        exact BitVec.getLsbD_eq_getElem hi
      · have h : 24 + (i - 8 - 8 - 8) = i := by omega
        rw [h]
        exact BitVec.getLsbD_eq_getElem hi

/-- Reading a word takes back what `be32` put down. -/
@[simp] theorem readWord_be32 (w : Word32) (rest : Bytes) : readWord (be32 w ++ rest) = some (w, rest) := by
  have h := append_be32 w
  simp only [be32, List.cons_append, List.nil_append, readWord]
  rw [h]

/-- The header word of a kind names that kind (30_encoding.md rule R66). -/
@[simp] theorem kindOf?_wireHeader (k : Kind) : kindOf? (wireHeader k) = some k := by
  cases k <;> decide

end Sys2Proof
end

