-- ==== Sys2Proof/Laws/Float64.lean ====
section
/-! SUPPORT. One lemma per step of binary64 rounding: what the integer rounding answers, and that the exponent found is
the right one. -/

namespace Sys2Proof.Machine

/-- Rounding to an integer is off by half a unit at most, and where it is exactly half, the result is even. -/
theorem roundHalfEven_spec (n d : Nat) (hd : 0 < d) :
    2 * n ≤ (2 * roundHalfEven n d + 1) * d ∧ 2 * roundHalfEven n d * d ≤ 2 * n + d ∧
      (2 * n = (2 * roundHalfEven n d + 1) * d ∨ 2 * roundHalfEven n d * d = 2 * n + d →
        roundHalfEven n d % 2 = 0) := by
  have hn := Nat.div_add_mod n d
  have hr := Nat.mod_lt n hd
  unfold roundHalfEven
  generalize n / d = q at *
  generalize n % d = r at *
  subst hn
  split
  · refine ⟨by nlinarith, by nlinarith, fun h => ?_⟩
    rcases h with h | h <;> nlinarith
  · split
    · refine ⟨by nlinarith, by nlinarith, fun h => ?_⟩
      rcases h with h | h <;> nlinarith
    · have he : 2 * r = d := by omega
      rcases Nat.mod_two_eq_zero_or_one q with h2 | h2
      · rw [h2]
        exact ⟨by nlinarith, by nlinarith, fun _ => by omega⟩
      · rw [h2]
        exact ⟨by nlinarith, by nlinarith, fun _ => by omega⟩

/-- The comparison with a power of two means what it says. -/
theorem ltPow2_iff (n d : Nat) (hd : 0 < d) (k : Int) : ltPow2 n d k = true ↔ (n : Rat) / d < 2 ^ k := by
  have hd' : (0 : Rat) < d := by exact_mod_cast hd
  cases k with
  | ofNat j =>
    rw [div_lt_iff₀ hd']
    simp only [ltPow2, decide_eq_true_eq, Int.ofNat_eq_natCast, zpow_natCast]
    rw [mul_comm]
    exact_mod_cast Iff.rfl
  | negSucc j =>
    simp only [ltPow2, decide_eq_true_eq, zpow_negSucc]
    have hp : (0 : Rat) < 2 ^ (j + 1) := by positivity
    rw [div_lt_iff₀ hd', inv_mul_eq_div, lt_div_iff₀ hp]
    exact_mod_cast Iff.rfl

/-- The exponent found is that of the leading bit. -/
theorem floorLog2_spec (n d : Nat) (hn : 0 < n) (hd : 0 < d) :
    (2 : Rat) ^ floorLog2 n d ≤ (n : Rat) / d ∧ (n : Rat) / d < 2 ^ (floorLog2 n d + 1) := by
  have hd' : (0 : Rat) < d := by exact_mod_cast hd
  have n1 : (2 : Rat) ^ Nat.log2 n ≤ n := by exact_mod_cast Nat.log2_self_le hn.ne'
  have n2 : (n : Rat) < 2 ^ (Nat.log2 n + 1) := by exact_mod_cast Nat.lt_log2_self
  have d1 : (2 : Rat) ^ Nat.log2 d ≤ d := by exact_mod_cast Nat.log2_self_le hd.ne'
  have d2 : (d : Rat) < 2 ^ (Nat.log2 d + 1) := by exact_mod_cast Nat.lt_log2_self
  have hlow : (2 : Rat) ^ ((Nat.log2 n : Int) - Nat.log2 d - 1) ≤ (n : Rat) / d := by
    rw [le_div_iff₀ hd', show ((Nat.log2 n : Int) - Nat.log2 d - 1) = (Nat.log2 n : Int) - ((Nat.log2 d + 1 : Nat) : Int) by
      push_cast; ring, zpow_sub₀ (by norm_num), zpow_natCast, zpow_natCast, div_mul_eq_mul_div,
      div_le_iff₀ (by positivity)]
    exact mul_le_mul n1 d2.le hd'.le (by positivity)
  have hhigh : (n : Rat) / d < 2 ^ ((Nat.log2 n : Int) - Nat.log2 d + 1) := by
    rw [div_lt_iff₀ hd', show ((Nat.log2 n : Int) - Nat.log2 d + 1) = ((Nat.log2 n + 1 : Nat) : Int) - (Nat.log2 d : Int) by
      push_cast; ring, zpow_sub₀ (by norm_num), zpow_natCast, zpow_natCast, div_mul_eq_mul_div,
      lt_div_iff₀ (by positivity)]
    exact mul_lt_mul n2 d1 (by positivity) (by positivity)
  unfold floorLog2
  simp only
  split
  · rename_i h
    rw [ltPow2_iff n d hd] at h
    exact ⟨hlow, by rw [sub_add_cancel]; exact h⟩
  · rename_i h
    rw [ltPow2_iff n d hd, not_lt] at h
    exact ⟨h, hhigh⟩

end Sys2Proof.Machine
end

