-- ==== Sys2Proof/Laws/State.lean ====
section
/-! SUPPORT. What each update of the state does to each field. -/

namespace Sys2Proof.Machine

@[simp] theorem State.setOut_cfg (s : State) (o : Outputs) : (s.setOut o).cfg = s.cfg := rfl
@[simp] theorem State.setOut_tail (s : State) (o : Outputs) : (s.setOut o).tail = s.tail := rfl
@[simp] theorem State.setOut_out (s : State) (o : Outputs) : (s.setOut o).out = o := rfl
@[simp] theorem State.setOut_faults (s : State) (o : Outputs) : (s.setOut o).faults = s.faults := rfl
@[simp] theorem State.setOut_inbox (s : State) (o : Outputs) : (s.setOut o).inbox = s.inbox := rfl
@[simp] theorem State.setOut_draws (s : State) (o : Outputs) : (s.setOut o).draws = s.draws := rfl

@[simp] theorem State.setTail_cfg (s : State) (t : Bytes) : (s.setTail t).cfg = s.cfg := rfl
@[simp] theorem State.setTail_tail (s : State) (t : Bytes) : (s.setTail t).tail = t := rfl
@[simp] theorem State.setTail_out (s : State) (t : Bytes) : (s.setTail t).out = s.out := rfl
@[simp] theorem State.setTail_faults (s : State) (t : Bytes) : (s.setTail t).faults = s.faults := rfl
@[simp] theorem State.setTail_inbox (s : State) (t : Bytes) : (s.setTail t).inbox = s.inbox := rfl
@[simp] theorem State.setTail_draws (s : State) (t : Bytes) : (s.setTail t).draws = s.draws := rfl

@[simp] theorem State.record_cfg (s : State) (st : Status) : (s.record st).cfg = s.cfg := rfl
@[simp] theorem State.record_tail (s : State) (st : Status) : (s.record st).tail = s.tail := rfl
@[simp] theorem State.record_out (s : State) (st : Status) : (s.record st).out = s.out := rfl
@[simp] theorem State.record_faults (s : State) (st : Status) : (s.record st).faults = s.faults ++ [st] := rfl
@[simp] theorem State.record_inbox (s : State) (st : Status) : (s.record st).inbox = s.inbox := rfl
@[simp] theorem State.record_draws (s : State) (st : Status) : (s.record st).draws = s.draws := rfl

@[simp] theorem State.setInbox_cfg (s : State) (es : List HostEvent) : (s.setInbox es).cfg = s.cfg := rfl
@[simp] theorem State.setInbox_tail (s : State) (es : List HostEvent) : (s.setInbox es).tail = s.tail := rfl
@[simp] theorem State.setInbox_out (s : State) (es : List HostEvent) : (s.setInbox es).out = s.out := rfl
@[simp] theorem State.setInbox_faults (s : State) (es : List HostEvent) : (s.setInbox es).faults = s.faults := rfl
@[simp] theorem State.setInbox_inbox (s : State) (es : List HostEvent) : (s.setInbox es).inbox = es := rfl
@[simp] theorem State.setInbox_draws (s : State) (es : List HostEvent) : (s.setInbox es).draws = s.draws := rfl

@[simp] theorem State.countDraw_cfg (s : State) : (s.countDraw).cfg = s.cfg := rfl
@[simp] theorem State.countDraw_tail (s : State) : (s.countDraw).tail = s.tail := rfl
@[simp] theorem State.countDraw_out (s : State) : (s.countDraw).out = s.out := rfl
@[simp] theorem State.countDraw_faults (s : State) : (s.countDraw).faults = s.faults := rfl
@[simp] theorem State.countDraw_inbox (s : State) : (s.countDraw).inbox = s.inbox := rfl
@[simp] theorem State.countDraw_draws (s : State) : (s.countDraw).draws = s.draws + 1 := rfl

end Sys2Proof.Machine
end

