-- ==== Sys2Proof/Laws/Ops.lean ====
section
/-! SUPPORT. What each shared operation does, once: the provers cite these instead of unfolding the operation. -/

namespace Sys2Proof.Machine

/-- Emitting a frame changes the outputs alone. -/
theorem emitFrame_eq (k : Kind) (payload : Bytes) (s : State) :
    emitFrame k payload s = { s with
      out := { status := some .ok, frameOut := some (buildFrame s.cfg k payload), csumOut := none, result := none } } :=
  rfl

/-- Answering a checksum changes the outputs alone. -/
theorem answerCsum_eq (b : Byte) (s : State) :
    answerCsum b s = { s with
      out := { status := some .ok, frameOut := none, csumOut := some b, result := none } } := rfl

/-- Answering a result changes the outputs alone. -/
theorem answerResult_eq (r : Result) (s : State) :
    answerResult r s = { s with
      out := { status := some .ok, frameOut := none, csumOut := none, result := some r } } := rfl

/-- Raising a status changes the outputs and adds to the fault record. -/
theorem raiseStatus_eq (st : Status) (s : State) :
    raiseStatus st s = { s with
      out := { status := some st, frameOut := none, csumOut := none, result := none }
      faults := s.faults ++ [st] } := rfl

/-- RESET changes TAIL and the outputs. -/
theorem resetBlock_eq (s : State) :
    resetBlock s = { s with
      tail := [], out := { status := none, frameOut := none, csumOut := none, result := none } } := rfl

/-- A draw changes TAIL and counts. -/
theorem drawTail_eq (s : State) :
    drawTail s = { s with
      tail := capTail s.cfg (Free.tailAfterOverflow s.draws), draws := s.draws + 1 } := rfl

/-- What is cut to the capacity fits it. -/
theorem capTail_length_le (c : Config) (t : Bytes) (n : Nat) (h : c.tailCap = some n) :
    (capTail c t).length ≤ n := by
  simp [capTail, h]

/-- A configured frame is emitted, or refused while its payload is OPEN. -/
theorem emitConfigured_cases (k : Kind) (s : State) :
    (∃ payload, streamPayload s.cfg k = some payload ∧ emitConfigured k s = .next (emitFrame k payload s)) ∨
      (streamPayload s.cfg k = none ∧ emitConfigured k s = .refused (.openPayload k)) := by
  unfold emitConfigured
  cases h : streamPayload s.cfg k with
  | none => exact .inr ⟨rfl, rfl⟩
  | some p => exact .inl ⟨p, rfl, rfl⟩

/-- Decoding a locator frame answers a reading or raises E_SHORT_LOCATOR. -/
theorem decodeLocator_cases (frame : Bytes) (s : State) :
    (locatorLength s.cfg ≤ frame.length ∧ decodeLocator frame s = answerResult (readingOf s.cfg frame) s) ∨
      (frame.length < locatorLength s.cfg ∧
        decodeLocator frame s = raiseStatus (.shortLocator frame.length) s) := by
  unfold decodeLocator
  split
  · exact .inr ⟨by omega, rfl⟩
  · exact .inl ⟨by omega, rfl⟩

/-- The report on a locator report decodes it. -/
theorem reportLast_locator {frame : Bytes} {s : State} (h : isLocator s.cfg frame = true) :
    reportLast (some frame) s = decodeLocator frame s := by
  simp [reportLast, h]

/-- The report on any other frame is NODATA. -/
theorem reportLast_other {frame : Bytes} {s : State} (h : isLocator s.cfg frame = false) :
    reportLast (some frame) s = answerResult .nodata s := by
  simp [reportLast, h]

/-- The report on no frame is NODATA. -/
@[simp] theorem reportLast_none (s : State) : reportLast none s = answerResult .nodata s := rfl

/-- The report on the last frame answers a result or raises E_SHORT_LOCATOR. -/
theorem reportLast_cases (last : Option Bytes) (s : State) :
    (∃ r, reportLast last s = answerResult r s) ∨
      ∃ n, reportLast last s = raiseStatus (.shortLocator n) s := by
  unfold reportLast
  split
  · split
    · rcases decodeLocator_cases _ s with ⟨_, h⟩ | ⟨_, h⟩
      · exact .inl ⟨_, h⟩
      · exact .inr ⟨_, h⟩
    · exact .inl ⟨_, rfl⟩
  · exact .inl ⟨_, rfl⟩

/-- A SCAN overflows and draws a TAIL, or writes the new tail and reports. -/
theorem scanChunk_cases (chunk : Bytes) (s : State) :
    (overflows s.cfg (scanBuffer (s.tail ++ chunk)).2 = true ∧
        scanChunk chunk s =
          raiseStatus (.tailOverflow (scanBuffer (s.tail ++ chunk)).2.length) (drawTail s)) ∨
      (overflows s.cfg (scanBuffer (s.tail ++ chunk)).2 = false ∧
        scanChunk chunk s =
          reportLast (scanBuffer (s.tail ++ chunk)).1.getLast? (s.setTail (scanBuffer (s.tail ++ chunk)).2)) := by
  unfold scanChunk
  cases h : overflows s.cfg (scanBuffer (s.tail ++ chunk)).2 with
  | true => exact .inl ⟨rfl, by simp [h]⟩
  | false => exact .inr ⟨rfl, by simp [h]⟩

/-- What a fetch finds, in the order it looks. -/
theorem fetch_cases (s : State) :
    (conforming s.cfg = false ∧ fetch s = .refused .nonconformingInstance) ∨
      (conforming s.cfg = true ∧ s.inbox = [] ∧ fetch s = .idle) ∨
      (conforming s.cfg = true ∧ ∃ rest, s.inbox = .reset :: rest ∧ fetch s = .reset (s.setInbox rest)) ∨
      (conforming s.cfg = true ∧ ∃ r rest i, s.inbox = .request r :: rest ∧ decode r = .ok i ∧
        fetch s = .run i (s.setInbox rest)) ∨
      (conforming s.cfg = true ∧ ∃ r rest why, s.inbox = .request r :: rest ∧ decode r = .error why ∧
        fetch s = .refused (.notARequest why)) := by
  unfold fetch
  cases hc : conforming s.cfg with
  | false => simp
  | true =>
    cases hi : s.inbox with
    | nil => simp
    | cons e rest =>
      cases e with
      | reset => simp
      | request r => cases hd : decode r <;> simp [hd]

/-- What a step that answers a next state did. -/
theorem step_cases {s t : State} (h : step s = .next t) :
    (s.inbox = [] ∧ t = s) ∨
      (∃ rest, s.inbox = .reset :: rest ∧ t = resetBlock (s.setInbox rest)) ∨
      ∃ r rest i, s.inbox = .request r :: rest ∧ decode r = .ok i ∧ exec i (s.setInbox rest) = .next t := by
  unfold step at h
  rcases fetch_cases s with ⟨_, hf⟩ | ⟨_, hi, hf⟩ | ⟨_, rest, hi, hf⟩ | ⟨_, r, rest, i, hi, hd, hf⟩ |
    ⟨_, r, rest, why, _, _, hf⟩ <;> rw [hf] at h
  · cases h
  · cases h; exact .inl ⟨hi, rfl⟩
  · cases h; exact .inr (.inl ⟨rest, hi, rfl⟩)
  · exact .inr (.inr ⟨r, rest, i, hi, hd, h⟩)
  · cases h

/-- The one thing every meaning does: it emits a frame, answers a checksum or a result, raises a reserved opcode, or
scans. -/
theorem exec_cases {i : Instr} {s t : State} (h : exec i s = .next t) :
    (∃ k payload, t = emitFrame k payload s) ∨ (∃ b, t = answerCsum b s) ∨ (∃ f, t = decodeLocator f s) ∨
      (∃ op, t = raiseStatus (.illegalOp op) s) ∨ ∃ chunk, t = scanChunk chunk s := by
  cases i
  case csum b => cases h; exact .inr (.inl ⟨_, rfl⟩)
  case scan c => cases h; exact .inr (.inr (.inr (.inr ⟨_, rfl⟩)))
  case wireLocatorReport b1 b2 b3 rest => cases h; exact .inr (.inr (.inr (.inr ⟨_, rfl⟩)))
  case deserLocator f => cases h; exact .inr (.inr (.inl ⟨_, rfl⟩))
  case reservedD => cases h; exact .inr (.inr (.inr (.inl ⟨_, rfl⟩)))
  case reservedE => cases h; exact .inr (.inr (.inr (.inl ⟨_, rfl⟩)))
  case reservedF => cases h; exact .inr (.inr (.inr (.inl ⟨_, rfl⟩)))
  case encCfgStream | encStartStream | wireConfigureStreaming | wireStartStreaming =>
    all_goals
      simp only [exec, execEncCfgStream, execEncStartStream, execWireConfigureStreaming,
        execWireStartStreaming] at h
      rcases emitConfigured_cases _ s with ⟨p, _, hp⟩ | ⟨_, hp⟩
      · rw [hp] at h; cases h; exact .inl ⟨_, _, rfl⟩
      · rw [hp] at h; cases h
  all_goals (cases h; exact .inl ⟨_, _, rfl⟩)

end Sys2Proof.Machine
end

