-- ==== Sys2Proof/Laws/PerInstr.lean ====
section
/-! SUPPORT. The family "decoding the encoding of a well-formed instruction gives it back", one lemma per
constructor. -/

namespace Sys2Proof.Laws.EncodeRoundTrip

open Machine

/-- A well-formed instruction survives encoding. -/
def Statement (i : Instr) : Prop := i.wellFormed = true → decode (encode i) = .ok i

theorem csum (s : Bytes) : Statement (.csum s) := fun _ => formatS_seqSlot _ s _

theorem encDrive (speed heading : Int) : Statement (.encDrive speed heading) := fun _ => rfl

theorem encRawMotors (lm ls rm rs : Int) : Statement (.encRawMotors lm ls rm rs) := fun _ => rfl

theorem deriveMotor (left right : Int) : Statement (.deriveMotor left right) := fun _ => rfl

theorem encDtpSi (yaw x y speed : Word32) : Statement (.encDtpSi yaw x y speed) := fun _ => rfl

theorem encResetYaw : Statement .encResetYaw := fun _ => rfl

theorem encCfgStream : Statement .encCfgStream := fun _ => rfl

theorem encStartStream : Statement .encStartStream := fun _ => rfl

theorem encSetAllLeds (red green blue : Int) : Statement (.encSetAllLeds red green blue) := fun _ => rfl

theorem encWake : Statement .encWake := fun _ => rfl

theorem encSleep : Statement .encSleep := fun _ => rfl

theorem scan (chunk : Bytes) : Statement (.scan chunk) := fun _ => formatS_seqSlot _ chunk _

theorem deserLocator (frame : Bytes) : Statement (.deserLocator frame) := fun _ => formatS_seqSlot _ frame _

theorem reservedD : Statement .reservedD := fun _ => rfl

theorem reservedE : Statement .reservedE := fun _ => rfl

theorem reservedF : Statement .reservedF := fun _ => rfl

theorem wireDrive (speed : Byte) (heading : BitVec 16) (reverse : Bool) :
    Statement (.wireDrive speed heading reverse) := by
  intro h
  have hb := append_be16 heading
  have hr : readPayload .drive (drivePayload speed heading reverse) = some (.wireDrive speed heading reverse) := by
    simp only [readPayload, drivePayload, be16, List.cons_append, List.nil_append, readDrive]
    rw [hb]
    cases reverse <;> simp [reverseByte]
  simp [decode, encode, decodeWireOut, hr, h]

theorem wireRawMotors (lm ls rm rs : Byte) : Statement (.wireRawMotors lm ls rm rs) := by
  intro h
  simp [decode, encode, decodeWireOut, rawMotorsPayload, readPayload, readRawMotors, h]

theorem wireDriveToPositionSI (yaw x y speed : Word32) : Statement (.wireDriveToPositionSI yaw x y speed) := by
  intro h
  have hr : readPayload .driveToPositionSI (dtpPayload yaw x y speed) =
      some (.wireDriveToPositionSI yaw x y speed) := by
    simp [readPayload, readDtp, dtpPayload]
  simp [decode, encode, decodeWireOut, hr, h]

theorem wireResetYaw : Statement .wireResetYaw := fun _ => by
  simp [decode, encode, decodeWireOut, readPayload, readEmpty, Instr.wellFormed]

theorem wireConfigureStreaming : Statement .wireConfigureStreaming := fun _ => by
  simp [decode, encode, decodeWireOut, readPayload, readEmpty, Instr.wellFormed]

theorem wireStartStreaming : Statement .wireStartStreaming := fun _ => by
  simp [decode, encode, decodeWireOut, readPayload, readEmpty, Instr.wellFormed]

theorem wireSetAllLEDs (red green blue : Byte) : Statement (.wireSetAllLEDs red green blue) := by
  intro h
  have hr : readPayload .setAllLEDs (ledPayload red green blue) = some (.wireSetAllLEDs red green blue) := by
    have h0 : byteAt (ledPayload red green blue) 0 = red := rfl
    have h1 : byteAt (ledPayload red green blue) 1 = green := rfl
    have h2 : byteAt (ledPayload red green blue) 2 = blue := rfl
    simp [readPayload, readLeds, h0, h1, h2]
  simp [decode, encode, decodeWireOut, hr, h]

theorem wireWake : Statement .wireWake := fun _ => by
  simp [decode, encode, decodeWireOut, readPayload, readEmpty, Instr.wellFormed]

theorem wireSleep : Statement .wireSleep := fun _ => by
  simp [decode, encode, decodeWireOut, readPayload, readEmpty, Instr.wellFormed]

theorem wireLocatorReport (b1 b2 b3 : Byte) (rest : Bytes) : Statement (.wireLocatorReport b1 b2 b3 rest) :=
  fun _ => rfl

end Sys2Proof.Laws.EncodeRoundTrip
end

