-- ==== Sys2Proof/Laws/Scanner.lean ====
section
/-! SUPPORT. The small lemmas of the scanner: what a marker search answers, and that the loop reads only what stands at
and after its cursor. -/

namespace Sys2Proof.Machine

/-- A search answers nothing exactly when the marker does not occur from there on. -/
theorem firstFrom_eq_none (m : Byte) (i : Nat) (b : Bytes) : firstFrom m i b = none ↔ m ∉ b.drop i := by
  unfold firstFrom
  simp only [Option.map_eq_none_iff, List.findIdx?_eq_none_iff, beq_eq_false_iff_ne]
  exact ⟨fun h hm => h m hm rfl, fun h x hx hxm => h (hxm ▸ hx)⟩

/-- A search that passes bytes without the marker and meets it answers that place. -/
theorem firstFrom_append (m : Byte) (front noise rest : Bytes) (h : m ∉ noise) :
    firstFrom m front.length (front ++ (noise ++ m :: rest)) = some (front.length + noise.length) := by
  unfold firstFrom
  rw [List.drop_left]
  have hn : List.findIdx? (· == m) noise = none := by
    rw [List.findIdx?_eq_none_iff]
    intro x hx
    rw [beq_eq_false_iff_ne]
    exact fun e => h (e ▸ hx)
  rw [List.findIdx?_append, hn]
  simp [List.findIdx?_cons]

/-- The frames found so far stand before the ones still to be found. -/
theorem scanLoop_found (turns : Nat) (b : Bytes) (i : Nat) (found : List Bytes) :
    scanLoop turns b i found = (found ++ (scanLoop turns b i []).1, (scanLoop turns b i []).2) := by
  induction turns generalizing i found with
  | zero => simp [scanLoop]
  | succ n ih =>
    cases hs : firstFrom startMarker i b with
    | none => simp [scanLoop, hs]
    | some st =>
      cases he : firstFrom endMarker (st + 1) b with
      | none => simp [scanLoop, hs, he]
      | some e =>
        simp only [scanLoop, hs, he, List.nil_append]
        rw [ih, ih (found := [slice b st e])]
        simp

end Sys2Proof.Machine
end

