-- ==== Sys2Proof/Tests/Slice0.lean ====
section
/-! SUPPORT. Small tests. Expected results come from spec/95_test_vectors.md (the vector is named in each comment) or from
the encodings of 30_encoding.md written out by hand; and one witness for each statement's hypotheses. -/

namespace Sys2Proof.Tests

open Machine

/-- The block just after reset with this TAIL. -/
def withTail (t : Bytes) : State := State.reset.setTail t

/-- The block just after reset with this TAIL_CAP and TAIL. -/
def withCap (n : Nat) (t : Bytes) : State :=
  { State.reset with cfg := { State.reset.cfg with tailCap := some n }, tail := t }

/-- The block just after reset with these stream payloads. -/
def withPayloads (c st : Option Bytes) : State :=
  { State.reset with cfg := { State.reset.cfg with cfgStreamPayload := c, startStreamPayload := st } }

/-- The block just after reset with these events waiting. -/
def withInbox (es : List HostEvent) : State := State.reset.setInbox es

/-- The outputs an instruction leaves, when it answers a next state. -/
def outOf (i : Instr) (s : State) : Option Outputs :=
  match exec i s with
  | .next t => some t.out
  | .fault _ => none
  | .refused _ => none

/-- The TAIL an instruction leaves, when it answers a next state. -/
def tailOf (i : Instr) (s : State) : Option Bytes :=
  match exec i s with
  | .next t => some t.tail
  | .fault _ => none
  | .refused _ => none

/-- The frame of ENC_RESET_YAW, RY of the test vectors. -/
def frameRY : Bytes := [0x8D#8, 0x01#8, 0x16#8, 0x06#8, 0x00#8, 0xE2#8, 0xD8#8]

/-- The locator report L1 of the test vectors. -/
def frameL1 : Bytes := [0x8D#8, 0x01#8, 0x18#8, 0x00#8, 0x3D#8, 0x7F#8, 0xFF#8, 0xFF#8, 0xFF#8, 0x00#8, 0x00#8, 0x00#8, 0x00#8, 0x2D#8, 0xD8#8]

/-- The locator report L2 of the test vectors. -/
def frameL2 : Bytes := [0x8D#8, 0x01#8, 0x18#8, 0x00#8, 0x3D#8, 0x00#8, 0x00#8, 0x00#8, 0x01#8, 0x80#8, 0x00#8, 0x00#8, 0x00#8, 0x28#8, 0xD8#8]

/-! ### Well-formedness: an ill-formed term for each check -/

/-- The reverse branch of Drive never sends a heading of 360 (41_frame_encoder.md rule R102). -/
theorem test_illFormed_wireDrive : (Instr.wireDrive 0x00#8 360#16 true).wellFormed = false := by decide

/-- A left mode of 3 is no mode (41_frame_encoder.md rule R103). -/
theorem test_illFormed_wireRawMotors_left : (Instr.wireRawMotors 3#8 0#8 0#8 0#8).wellFormed = false := by decide

/-- A right mode of 3 is no mode. -/
theorem test_illFormed_wireRawMotors_right : (Instr.wireRawMotors 0#8 0#8 3#8 0#8).wellFormed = false := by decide

/-- The decoder refuses the ill-formed Drive payload by name. -/
theorem test_decode_refuses_illFormed_drive :
    decode (.wireOut 0x8D011607#32 [0x00#8, 0x01#8, 0x68#8, 0x01#8]) = .error (.badWirePayload .drive) := by decide

/-- The decoder refuses a payload with a nonzero trailing DriveToPositionSI byte by name (30_encoding.md rule R67). -/
theorem test_decode_refuses_dtp_flags :
    decode (.wireOut 0x8D061638#32 (List.replicate 16 0x00#8 ++ [0x01#8])) =
      .error (.badWirePayload .driveToPositionSI) := by decide

/-- The decoder refuses an unknown header by name. -/
theorem test_decode_refuses_unknown_header :
    decode (.wireOut 0x8D010000#32 []) = .error (.unknownWireHeader 0x8D010000#32) := by decide

/-- A byte of 256 in a sequence slot is malformed (30_encoding.md rule R63). -/
theorem test_decode_refuses_wide_byte :
    decode (.command 0x0#4 [.seq [1, 256]]) = .error (.malformedSlots 0x0#4) := by decide

/-- A wrong count of slots is malformed (30_encoding.md rule R63). -/
theorem test_decode_refuses_wrong_count :
    decode (.command 0x1#4 [.int 1]) = .error (.malformedSlots 0x1#4) := by decide

/-! ### Decoding: every constructor's word, from 30_encoding.md rules R61, R62, R66, R67 and R70 -/

theorem test_decode_csum :
    decode (.command 0b0000#4 [.seq [1, 255]]) =
      .ok (.csum [0x01#8, 0xFF#8]) := by decide

theorem test_decode_encDrive :
    decode (.command 0b0001#4 [.int (-30), .int 10]) =
      .ok (.encDrive (-30) 10) := by decide

theorem test_decode_encRawMotors :
    decode (.command 0b0010#4 [.int 1, .int 100, .int 2, .int 200]) =
      .ok (.encRawMotors 1 100 2 200) := by decide

theorem test_decode_deriveMotor :
    decode (.command 0b0011#4 [.int 100, .int (-100)]) =
      .ok (.deriveMotor 100 (-100)) := by decide

theorem test_decode_encDtpSi :
    decode (.command 0b0100#4 [.word 0x42B40000#32, .word 0x3FC00000#32, .word 0xC0000000#32, .word 0x3F000000#32]) =
      .ok (.encDtpSi 0x42B40000#32 0x3FC00000#32 0xC0000000#32 0x3F000000#32) := by decide

theorem test_decode_encResetYaw :
    decode (.command 0b0101#4 []) =
      .ok (.encResetYaw) := by decide

theorem test_decode_encCfgStream :
    decode (.command 0b0110#4 []) =
      .ok (.encCfgStream) := by decide

theorem test_decode_encStartStream :
    decode (.command 0b0111#4 []) =
      .ok (.encStartStream) := by decide

theorem test_decode_encSetAllLeds :
    decode (.command 0b1000#4 [.int 300, .int 0, .int (-1)]) =
      .ok (.encSetAllLeds 300 0 (-1)) := by decide

theorem test_decode_encWake :
    decode (.command 0b1001#4 []) =
      .ok (.encWake) := by decide

theorem test_decode_encSleep :
    decode (.command 0b1010#4 []) =
      .ok (.encSleep) := by decide

theorem test_decode_scan :
    decode (.command 0b1011#4 [.seq [141]]) =
      .ok (.scan [0x8D#8]) := by decide

theorem test_decode_deserLocator :
    decode (.command 0b1100#4 [.seq [0]]) =
      .ok (.deserLocator [0x00#8]) := by decide

theorem test_decode_reservedD :
    decode (.command 0b1101#4 [.int 7]) =
      .ok (.reservedD) := by decide

theorem test_decode_reservedE :
    decode (.command 0b1110#4 []) =
      .ok (.reservedE) := by decide

theorem test_decode_reservedF :
    decode (.command 0b1111#4 [.seq [999]]) =
      .ok (.reservedF) := by decide

theorem test_decode_wireDrive :
    decode (.wireOut 0x8D011607#32 [0x1E#8, 0x00#8, 0xBE#8, 0x01#8]) =
      .ok (.wireDrive 0x1E#8 190#16 true) := by decide

theorem test_decode_wireRawMotors :
    decode (.wireOut 0x8D011601#32 [0x01#8, 0x64#8, 0x02#8, 0xC8#8]) =
      .ok (.wireRawMotors 1#8 100#8 2#8 200#8) := by decide

theorem test_decode_wireDriveToPositionSI :
    decode (.wireOut 0x8D061638#32 [0x42#8, 0xB4#8, 0x00#8, 0x00#8, 0x3F#8, 0xC0#8, 0x00#8, 0x00#8, 0xC0#8, 0x00#8,
      0x00#8, 0x00#8, 0x3F#8, 0x00#8, 0x00#8, 0x00#8, 0x00#8]) =
      .ok (.wireDriveToPositionSI 0x42B40000#32 0x3FC00000#32 0xC0000000#32 0x3F000000#32) := by decide

theorem test_decode_wireResetYaw :
    decode (.wireOut 0x8D011606#32 []) =
      .ok (.wireResetYaw) := by decide

theorem test_decode_wireConfigureStreaming :
    decode (.wireOut 0x8D021839#32 []) =
      .ok (.wireConfigureStreaming) := by decide

theorem test_decode_wireStartStreaming :
    decode (.wireOut 0x8D02183A#32 []) =
      .ok (.wireStartStreaming) := by decide

theorem test_decode_wireSetAllLEDs :
    decode (.wireOut 0x8D011A1A#32 ((List.replicate 10 [0xFF#8, 0x80#8, 0x00#8]).flatten)) =
      .ok (.wireSetAllLEDs 255#8 128#8 0#8) := by decide

theorem test_decode_wireWake :
    decode (.wireOut 0x8D01130D#32 []) =
      .ok (.wireWake) := by decide

theorem test_decode_wireSleep :
    decode (.wireOut 0x8D011301#32 []) =
      .ok (.wireSleep) := by decide

theorem test_decode_wireLocatorReport :
    decode (.wireIn [0x8D#8, 0x01#8, 0x18#8, 0x00#8, 0x3D#8, 0xD8#8]) =
      .ok (.wireLocatorReport 0x01#8 0x18#8 0x00#8 [0xD8#8]) := by decide

/-- Every row's table word decodes (spec/opcode_table.json's match column). -/
theorem test_table_words_command :
    (List.range 16).all (fun op => (decodeTableWord 8 op).isSome) = true := by decide

/-- The nine outbound rows' words. -/
theorem test_table_words_wire :
    [0x8D011607, 0x8D011601, 0x8D061638, 0x8D011606, 0x8D021839, 0x8D02183A, 0x8D011A1A, 0x8D01130D,
      0x8D011301].all (fun w => (decodeTableWord 32 w).isSome) = true := by decide

/-! ### One step per instruction -/

/-- Vector C5. -/
theorem test_csum_carry_discarded :
    outOf (.csum [0xFF#8, 0xFF#8]) State.reset = some (okCsum 0x01#8) := by decide

/-- Vector C12. -/
theorem test_csum_whole_frame :
    outOf (.csum frameRY) State.reset = some (okCsum 0x9B#8) := by decide

/-- Vector E5. -/
theorem test_encDrive_reverse :
    outOf (.encDrive (-255) 359) (withTail [0x8D#8, 0x01#8]) =
      some (okFrame [0x8D#8, 0x01#8, 0x16#8, 0x07#8, 0x00#8, 0xFF#8, 0x00#8, 0xB3#8, 0x01#8, 0x2E#8, 0xD8#8]) := by decide

/-- Vector E10. -/
theorem test_encDrive_heading_not_reduced :
    outOf (.encDrive 10 (-10)) (withTail [0x8D#8, 0x01#8]) =
      some (okFrame [0x8D#8, 0x01#8, 0x16#8, 0x07#8, 0x00#8, 0x0A#8, 0xFF#8, 0xF6#8, 0x00#8, 0xE2#8, 0xD8#8]) := by decide

/-- Vector E23. -/
theorem test_encRawMotors_mode_257 :
    outOf (.encRawMotors 257 1 0 1) (withTail [0x8D#8, 0x01#8]) =
      some (okFrame [0x8D#8, 0x01#8, 0x16#8, 0x01#8, 0x00#8, 0x00#8, 0x01#8, 0x00#8, 0x01#8, 0xE5#8, 0xD8#8]) := by decide

/-- Vector E21. -/
theorem test_encRawMotors_truncates :
    outOf (.encRawMotors 2 256 1 (-1)) (withTail [0x8D#8, 0x01#8]) =
      some (okFrame [0x8D#8, 0x01#8, 0x16#8, 0x01#8, 0x00#8, 0x02#8, 0x00#8, 0x01#8, 0xFF#8, 0xE5#8, 0xD8#8]) := by decide

/-- Vector E25. -/
theorem test_deriveMotor_zero :
    outOf (.deriveMotor 0 (-1)) (withTail [0x8D#8, 0x01#8]) =
      some (okFrame [0x8D#8, 0x01#8, 0x16#8, 0x01#8, 0x00#8, 0x01#8, 0x00#8, 0x02#8, 0x01#8, 0xE3#8, 0xD8#8]) := by decide

/-- Vector E28. -/
theorem test_deriveMotor_clamps :
    outOf (.deriveMotor (-256) 1000) (withTail [0x8D#8, 0x01#8]) =
      some (okFrame [0x8D#8, 0x01#8, 0x16#8, 0x01#8, 0x00#8, 0x02#8, 0xFF#8, 0x01#8, 0xFF#8, 0xE6#8, 0xD8#8]) := by decide

/-- Vector E31. -/
theorem test_encDtpSi_bit_exact :
    outOf (.encDtpSi 0x80000000#32 0x7FC00000#32 0x7F800000#32 0x00000001#32) (withTail [0x8D#8, 0x01#8]) =
      some (okFrame [0x8D#8, 0x06#8, 0x16#8, 0x38#8, 0x00#8, 0x80#8, 0x00#8, 0x00#8, 0x00#8, 0x7F#8, 0xC0#8, 0x00#8, 0x00#8, 0x7F#8, 0x80#8, 0x00#8, 0x00#8, 0x00#8, 0x00#8, 0x00#8, 0x01#8, 0x00#8, 0xEC#8, 0xD8#8]) := by decide

/-- Vector E37. -/
theorem test_encResetYaw :
    outOf (.encResetYaw) (withTail [0x8D#8, 0x01#8]) =
      some (okFrame [0x8D#8, 0x01#8, 0x16#8, 0x06#8, 0x00#8, 0xE2#8, 0xD8#8]) := by decide

/-- Vector E42. -/
theorem test_encResetYaw_seq :
    outOf .encResetYaw { State.reset with cfg := { State.reset.cfg with seq := { defaultSeq with resetYaw := 0x05#8 } } } =
      some (okFrame [0x8D#8, 0x01#8, 0x16#8, 0x06#8, 0x05#8, 0xDD#8, 0xD8#8]) := by decide

/-- Vector E43. -/
theorem test_encCfgStream_payload :
    outOf (.encCfgStream) (withPayloads (some [0x01#8, 0x02#8]) none) =
      some (okFrame [0x8D#8, 0x02#8, 0x18#8, 0x39#8, 0x00#8, 0x01#8, 0x02#8, 0xA9#8, 0xD8#8]) := by decide

/-- Vector E40. -/
theorem test_encCfgStream_empty :
    outOf (.encCfgStream) (withPayloads (some []) none) =
      some (okFrame [0x8D#8, 0x02#8, 0x18#8, 0x39#8, 0x00#8, 0xAC#8, 0xD8#8]) := by decide

/-- Vector E41. -/
theorem test_encStartStream_empty :
    outOf (.encStartStream) (withPayloads none (some [])) =
      some (okFrame [0x8D#8, 0x02#8, 0x18#8, 0x3A#8, 0x00#8, 0xAB#8, 0xD8#8]) := by decide

/-- Vector E36. -/
theorem test_encSetAllLeds_masks :
    outOf (.encSetAllLeds 256 (-1) 511) (withTail [0x8D#8, 0x01#8]) =
      some (okFrame ([0x8D#8, 0x01#8, 0x1A#8, 0x1A#8, 0x00#8] ++ (List.replicate 10 [0x00#8, 0xFF#8, 0xFF#8]).flatten ++ [0xDE#8, 0xD8#8])) := by decide

/-- Vector E38. -/
theorem test_encWake :
    outOf (.encWake) (withTail [0x8D#8, 0x01#8]) =
      some (okFrame [0x8D#8, 0x01#8, 0x13#8, 0x0D#8, 0x00#8, 0xDE#8, 0xD8#8]) := by decide

/-- Vector E39. -/
theorem test_encSleep :
    outOf (.encSleep) (withTail [0x8D#8, 0x01#8]) =
      some (okFrame [0x8D#8, 0x01#8, 0x13#8, 0x01#8, 0x00#8, 0xEA#8, 0xD8#8]) := by decide

/-- Vector N9. -/
theorem test_scan_last_report_wins :
    outOf (.scan (frameL1 ++ frameL2)) State.reset =
      some (okResult (.reading (.binary64 0xC0CF3FFFFFC18000#64) (.binary64 0xC0DF4000001F4000#64))) := by decide

/-- Vector N32: the retained tail spans two requests. -/
theorem test_scan_overflow :
    outOf (.scan (List.replicate 5 0x00#8)) (withCap 8 [0x8D#8, 0x00#8, 0x00#8, 0x00#8]) =
      some (onlyStatus (.tailOverflow 9)) := by decide

/-- Vector N23: the last frame found is the spurious one, whose byte 4 is no 0x3D. -/
theorem test_scan_spurious_frame :
    (outOf (.scan ([0x8D#8, 0x01#8, 0xD8#8, 0x22#8, 0x8D#8, 0x33#8] ++ frameRY)) State.reset,
      (scanBuffer ([0x8D#8, 0x01#8, 0xD8#8, 0x22#8, 0x8D#8, 0x33#8] ++ frameRY)).1) =
      (some (okResult .nodata), [[0x8D#8, 0x01#8, 0xD8#8], [0x8D#8, 0x33#8] ++ frameRY]) := by decide

/-- Vector N24. -/
theorem test_scan_short_locator :
    outOf (.scan [0x8D#8, 0x01#8, 0x18#8, 0x00#8, 0x3D#8, 0x00#8, 0xD8#8, 0x00#8, 0x00#8, 0x00#8, 0x00#8, 0x00#8, 0x00#8, 0x00#8, 0xD8#8]) State.reset =
      some (onlyStatus (.shortLocator 7)) := by decide

/-- Vector D9. -/
theorem test_deserLocator_markers :
    outOf (.deserLocator [0x8D#8, 0x01#8, 0x18#8, 0x00#8, 0x3D#8, 0x8D#8, 0xD8#8, 0x8D#8, 0xD8#8, 0xD8#8, 0x8D#8, 0xD8#8, 0x8D#8, 0x00#8, 0xD8#8]) State.reset =
      some (okResult (.reading (.binary64 0xC0DD8F50AF7DDEA2#64) (.binary64 0xC0D470AF50D3615F#64))) := by decide

/-- Vector D7. -/
theorem test_deserLocator_short :
    outOf (.deserLocator [0x8D#8, 0x01#8, 0x18#8, 0x00#8, 0x3D#8, 0x00#8, 0x00#8, 0x00#8, 0x00#8, 0x00#8, 0x00#8, 0x00#8]) State.reset =
      some (onlyStatus (.shortLocator 12)) := by decide

/-- The rounding contrast of 95_test_vectors.md §2.4.1. -/
theorem test_rescale_two_roundings :
    binary64Rescale 1132903364 = 0xC0BD8736510A0E6C#64 := by decide

/-- The exact q(raw) of raw 1000 in 95_test_vectors.md §2.4.1. -/
theorem test_rescale_exact :
    exactRescale 1000 = mkRat (-34359722352000) 2147483647 := by decide

/-- Vector X1. -/
theorem test_reservedD :
    outOf .reservedD (withTail [0x8D#8]) = some (onlyStatus (.illegalOp 0xD#4)) := by decide

/-- Vector X2. -/
theorem test_reservedE :
    outOf .reservedE (withTail [0x8D#8]) = some (onlyStatus (.illegalOp 0xE#4)) := by decide

/-- Vector X3. -/
theorem test_reservedF :
    outOf .reservedF (withTail [0x8D#8]) = some (onlyStatus (.illegalOp 0xF#4)) := by decide

/-- The Drive frame of vector E2 from its fields. -/
theorem test_wireDrive :
    outOf (.wireDrive 0x1E#8 190#16 true) (withTail [0x8D#8, 0x01#8]) =
      some (okFrame [0x8D#8, 0x01#8, 0x16#8, 0x07#8, 0x00#8, 0x1E#8, 0x00#8, 0xBE#8, 0x01#8, 0x04#8, 0xD8#8]) := by decide

/-- The RawMotors frame of vector E19 from its fields. -/
theorem test_wireRawMotors :
    outOf (.wireRawMotors 1#8 100#8 2#8 200#8) (withTail [0x8D#8, 0x01#8]) =
      some (okFrame [0x8D#8, 0x01#8, 0x16#8, 0x01#8, 0x00#8, 0x01#8, 0x64#8, 0x02#8, 0xC8#8, 0xB8#8, 0xD8#8]) := by decide

/-- The frame of vector E29 from its fields. -/
theorem test_wireDriveToPositionSI :
    outOf (.wireDriveToPositionSI 0x42B40000#32 0x3FC00000#32 0xC0000000#32 0x3F000000#32) (withTail [0x8D#8, 0x01#8]) =
      some (okFrame [0x8D#8, 0x06#8, 0x16#8, 0x38#8, 0x00#8, 0x42#8, 0xB4#8, 0x00#8, 0x00#8, 0x3F#8, 0xC0#8, 0x00#8, 0x00#8, 0xC0#8, 0x00#8, 0x00#8, 0x00#8, 0x3F#8, 0x00#8, 0x00#8, 0x00#8, 0x00#8, 0xB7#8, 0xD8#8]) := by decide

/-- The frame of vector E37. -/
theorem test_wireResetYaw :
    outOf (.wireResetYaw) (withTail [0x8D#8, 0x01#8]) =
      some (okFrame [0x8D#8, 0x01#8, 0x16#8, 0x06#8, 0x00#8, 0xE2#8, 0xD8#8]) := by decide

/-- The frame of vector E43. -/
theorem test_wireConfigureStreaming :
    outOf (.wireConfigureStreaming) (withPayloads (some [0x01#8, 0x02#8]) none) =
      some (okFrame [0x8D#8, 0x02#8, 0x18#8, 0x39#8, 0x00#8, 0x01#8, 0x02#8, 0xA9#8, 0xD8#8]) := by decide

/-- The frame of vector E41. -/
theorem test_wireStartStreaming :
    outOf (.wireStartStreaming) (withPayloads none (some [])) =
      some (okFrame [0x8D#8, 0x02#8, 0x18#8, 0x3A#8, 0x00#8, 0xAB#8, 0xD8#8]) := by decide

/-- The frame of vector E34 from its fields. -/
theorem test_wireSetAllLEDs :
    outOf (.wireSetAllLEDs 255#8 128#8 0#8) (withTail [0x8D#8, 0x01#8]) =
      some (okFrame ([0x8D#8, 0x01#8, 0x1A#8, 0x1A#8, 0x00#8] ++ (List.replicate 10 [0xFF#8, 0x80#8, 0x00#8]).flatten ++ [0xD4#8, 0xD8#8])) := by decide

/-- The frame of vector E38. -/
theorem test_wireWake :
    outOf (.wireWake) (withTail [0x8D#8, 0x01#8]) =
      some (okFrame [0x8D#8, 0x01#8, 0x13#8, 0x0D#8, 0x00#8, 0xDE#8, 0xD8#8]) := by decide

/-- The frame of vector E39. -/
theorem test_wireSleep :
    outOf (.wireSleep) (withTail [0x8D#8, 0x01#8]) =
      some (okFrame [0x8D#8, 0x01#8, 0x13#8, 0x01#8, 0x00#8, 0xEA#8, 0xD8#8]) := by decide

/-- Vector N11's reading, the frame L1 arriving on its own. -/
theorem test_wireLocatorReport :
    outOf (.wireLocatorReport 0x01#8 0x18#8 0x00#8 [0x7F#8, 0xFF#8, 0xFF#8, 0xFF#8, 0x00#8, 0x00#8, 0x00#8, 0x00#8, 0x2D#8, 0xD8#8]) State.reset =
      some (okResult (.reading (.binary64 0x0000000000000000#64) (.binary64 0xC0CF400000000000#64))) := by decide

/-! ### Witnesses: hypotheses of each statement, met together -/

theorem witness_ChecksumAlgebra :
    byteSum [0xFF#8, 0x01#8] % 256 = byteSum [] % 256 ∧ ([0x01#8, 0x02#8] : Bytes).isPerm [0x02#8, 0x01#8] = true ∧
      (0x00#8 : Byte) ≠ 0x01#8 ∧ (0x00#8 + 0x00#8 : Byte) = 0xFF#8 + 0x01#8 := by decide

theorem witness_EncSetAllLedsRepeatsMaskedTriple : 0 < 10 ∧ 9 < 10 := by decide

theorem witness_EncodersEmitTheWireLayout :
    encoderKind .encWake = some .wake ∧ ready State.reset.cfg .encWake = true ∧
      encoderKind .encCfgStream = some .configureStreaming ∧
      ready (withPayloads (some []) none).cfg .encCfgStream = true := by decide

theorem witness_EncodedFrameRecomputesItsChecksum :
    encoderKind (.encDrive 5 400) = some .drive ∧ ready State.reset.cfg (.encDrive 5 400) = true := by decide

theorem witness_ReversedDriveDiffersInFlagOnly : (0 : Int) < 1 := by decide

theorem witness_StreamRequestsEmitConfiguredPayload :
    (withPayloads (some [0x01#8]) none).cfg.cfgStreamPayload = some [0x01#8] ∧
      (withPayloads none (some [])).cfg.startStreamPayload = some [] := by decide

theorem witness_OpenPayloadIsRefused :
    (withPayloads none none).cfg.cfgStreamPayload = none ∧ (withPayloads none none).cfg.startStreamPayload = none := by
  decide

theorem witness_WireRowsFrameTheirPayloadFields :
    (withPayloads (some [0xFF#8]) none).cfg.cfgStreamPayload = some [0xFF#8] ∧
      (withPayloads none (some [])).cfg.startStreamPayload = some [] := by decide

theorem witness_WireRowsAreEncoderFrames :
    (Instr.wireDrive 0x00#8 359#16 true).wellFormed = true ∧
      frameKind (.wireDrive 0x00#8 359#16 true) = some .drive ∧
      (Instr.wireRawMotors 2#8 255#8 2#8 255#8).wellFormed = true := by decide

theorem witness_ReservedOpcodeIsIllegal :
    0xD ≤ (0xD#4).toNat ∧ 0xD ≤ (0xF#4).toNat ∧
      conforming (withInbox [.request (.command 0xD#4 [.int 1])]).cfg = true ∧
      (withInbox [.request (.command 0xD#4 [.int 1])]).inbox = .request (.command 0xD#4 [.int 1]) :: [] := by decide

/-- A locator frame of exactly 13 bytes at the defaults. -/
def frame13 : Bytes := [0x8D#8, 0x01#8, 0x18#8, 0x00#8, 0x3D#8, 0x00#8, 0x00#8, 0x00#8, 0x00#8, 0x00#8, 0x00#8, 0x00#8, 0xD8#8]

/-- A locator frame of exactly 12 bytes. -/
def frame12 : Bytes := [0x8D#8, 0x01#8, 0x18#8, 0x00#8, 0x3D#8, 0x00#8, 0x00#8, 0x00#8, 0x00#8, 0x00#8, 0x00#8, 0xD8#8]

theorem segments_frame13 : Segments frame13 [frame13] [] :=
  .frame [] [0x01#8, 0x18#8, 0x00#8, 0x3D#8, 0x00#8, 0x00#8, 0x00#8, 0x00#8, 0x00#8, 0x00#8, 0x00#8] [] [] [] (by decide) (by decide)
    (.done [] (by decide))

theorem segments_frame12 : Segments frame12 [frame12] [] :=
  .frame [] [0x01#8, 0x18#8, 0x00#8, 0x3D#8, 0x00#8, 0x00#8, 0x00#8, 0x00#8, 0x00#8, 0x00#8] [] [] [] (by decide) (by decide)
    (.done [] (by decide))

theorem witness_ScanBufferIsTheSegmentation :
    Segments frame13 [frame13] [] ∧ scanBuffer frame13 = ([frame13], []) := ⟨segments_frame13, by decide⟩

theorem witness_ScanReportsTheLastFrame_reading :
    Segments (State.reset.tail ++ frame13) [frame13] [] ∧
      TailFits State.reset.cfg [] ∧ [frame13].getLast? = some frame13 ∧ LocatorReport State.reset.cfg frame13 ∧
      HoldsIntegers State.reset.cfg frame13 :=
  ⟨segments_frame13, fun _ _ => Nat.zero_le _, rfl, by decide, by decide⟩

theorem witness_ScanReportsTheLastFrame_short :
    Segments (State.reset.tail ++ frame12) [frame12] [] ∧
      TailFits State.reset.cfg [] ∧ [frame12].getLast? = some frame12 ∧ LocatorReport State.reset.cfg frame12 ∧
      ¬ HoldsIntegers State.reset.cfg frame12 :=
  ⟨segments_frame12, fun _ _ => Nat.zero_le _, rfl, by decide, by decide⟩

theorem witness_ScanReportsTheLastFrame_nodata :
    Segments ((withCap 1 []).tail ++ [0x8D#8]) [] [0x8D#8] ∧ TailFits (withCap 1 []).cfg [0x8D#8] ∧
      ∀ frame, ([] : List Bytes).getLast? = some frame → ¬ LocatorReport (withCap 1 []).cfg frame :=
  ⟨.partialFrame [] [] (by decide) (by decide), fun n h => by cases h; decide, fun _ h => (nomatch h)⟩

/-- A report with the ResetYaw frame after it: the last frame is no report. -/
theorem witness_ScanReportsTheLastFrame_other :
    Segments (State.reset.tail ++ (frame13 ++ frameRY)) [frame13, frameRY] [] ∧ TailFits State.reset.cfg [] ∧
      [frame13, frameRY].getLast? = some frameRY ∧ ¬ LocatorReport State.reset.cfg frameRY :=
  ⟨.frame [] [0x01#8, 0x18#8, 0x00#8, 0x3D#8, 0x00#8, 0x00#8, 0x00#8, 0x00#8, 0x00#8, 0x00#8, 0x00#8] frameRY [frameRY] []
      (by decide) (by decide)
      (.frame [] [0x01#8, 0x16#8, 0x06#8, 0x00#8, 0xE2#8] [] [] [] (by decide) (by decide) (.done [] (by decide))),
    fun _ _ => Nat.zero_le _, rfl, by decide⟩

theorem witness_TailOverflowIsReported :
    Segments ((withCap 1 []).tail ++ [0x8D#8, 0x00#8]) [] [0x8D#8, 0x00#8] ∧
      (withCap 1 []).cfg.tailCap = some 1 ∧ 1 < ([0x8D#8, 0x00#8] : Bytes).length :=
  ⟨.partialFrame [] [0x00#8] (by decide) (by decide), rfl, by decide⟩

theorem witness_TailOverflowIsReported_unbounded :
    State.reset.cfg.tailCap = none ∧ exec .encWake State.reset = .next (emitFrame .wake [] State.reset) :=
  ⟨rfl, rfl⟩

theorem witness_ChunkingDoesNotChangeSegmentation : State.reset.cfg.tailCap = none := rfl

theorem witness_ScannerCommitsToFirstStart :
    (0xD8#8 : Byte) ∉ ([0x01#8, 0x8D#8] : Bytes) ∧ (0xD8#8 : Byte) ∉ ([0x02#8] : Bytes) := by decide

theorem witness_EmptyChunkKeepsTail :
    TailMarked (withCap 2 [0x8D#8, 0x01#8]).tail ∧ TailFits (withCap 2 []).cfg (withCap 2 [0x8D#8, 0x01#8]).tail :=
  ⟨.inr ⟨[0x01#8], rfl, by decide⟩, fun n h => by cases h; decide⟩

theorem witness_TailMarkerFormIsKept :
    TailMarked State.reset.tail ∧ step State.reset = .next State.reset ∧
      ∀ n, State.reset.out.status ≠ some (.tailOverflow n) :=
  ⟨.inl rfl, rfl, fun _ h => (nomatch h)⟩

theorem witness_EncodedFrameScansWholeUnlessCut_whole :
    frameKind .encResetYaw = some .resetYaw ∧
      exec .encResetYaw State.reset = .next { State.reset with out := okFrame frameRY } ∧
      (0xD8#8 : Byte) ∉ (frameRY.drop 1).take (frameRY.length - 2) :=
  ⟨rfl, rfl, by decide⟩

/-- The Drive frame of vector E15, whose checksum is END. -/
def frameE15 : Bytes := [0x8D#8, 0x01#8, 0x16#8, 0x07#8, 0x00#8, 0x09#8, 0x00#8, 0x00#8, 0x00#8, 0xD8#8, 0xD8#8]

theorem witness_EncodedFrameScansWholeUnlessCut_cut :
    frameKind (.encDrive 9 0) = some .drive ∧
      exec (.encDrive 9 0) State.reset = .next { State.reset with out := okFrame frameE15 } ∧
      (0xD8#8 : Byte) ∈ (frameE15.drop 1).take (frameE15.length - 2) :=
  ⟨rfl, rfl, by decide⟩

theorem witness_DeserLocatorReadsOrFaults :
    HoldsIntegers State.reset.cfg frame13 ∧ ¬ HoldsIntegers State.reset.cfg frame12 := by decide

theorem witness_SignedAndUnsignedRawReadings :
    State.reset.cfg.locRawSigned = true ∧ ({ State.reset.cfg with locRawSigned := false } : Config).locRawSigned = false ∧
      (wordAt [0x7F#8, 0xFF#8, 0xFF#8, 0xFF#8] 0).toNat < 2 ^ 31 ∧
      2 ^ 31 ≤ (wordAt [0x80#8, 0x00#8, 0x00#8, 0x00#8] 0).toNat := by decide

theorem witness_ExactRescaleIsTheLinearMap :
    (-2147483648 : Int) ≤ -2147483648 ∧ (2147483647 : Int) ≤ 2147483647 ∧ (4294967295 : Int) ≤ 4294967295 ∧
      (0 : Int) < 1 := by decide

theorem witness_Binary64RescaleRoundsTwiceToNearestEven :
    (-2147483648 : Int) ≤ -2147483648 ∧ (2147483647 : Int) ≤ 4294967295 := by decide

theorem witness_DeserLocatorIgnoresOtherBytes :
    frame13.length = (0x00#8 :: frame13.drop 1).length ∧
      ∀ j, j < 4 → frame13[State.reset.cfg.locXOff + j]? = (0x00#8 :: frame13.drop 1)[State.reset.cfg.locXOff + j]? ∧
        frame13[State.reset.cfg.locYOff + j]? = (0x00#8 :: frame13.drop 1)[State.reset.cfg.locYOff + j]? := by decide

theorem witness_ResetEventEmptiesTail :
    conforming (withInbox [.reset]).cfg = true ∧ (withInbox [.reset]).inbox = .reset :: [] := by decide

theorem witness_StepRunsTheDecodedRequest :
    conforming (withInbox [.request (.command 0x9#4 [])]).cfg = true ∧
      (withInbox [.request (.command 0x9#4 [])]).inbox = .request (.command 0x9#4 []) :: [] ∧
      decode (.command 0x9#4 []) = .ok .encWake := by decide

theorem witness_IdleAndNonconformingSteps :
    conforming State.reset.cfg = true ∧ State.reset.inbox = [] ∧ conforming (withCap 0 []).cfg = false := by decide

theorem witness_FetchWordRunsFirst :
    conforming State.reset.cfg = true ∧ decodeTableWord 8 0x9 = some .encWake ∧
      decodeTableWord 32 0x8D011301 = some .wireSleep := by decide

theorem witness_MalformedRequestsAreRefused :
    (0xC#4 : BitVec 4).toNat < 0xD ∧ ¬ slotsMatch 0x9#4 [.int 0] ∧
      conforming (withInbox [.request (.command 0x9#4 [.int 0])]).cfg = true ∧
      (withInbox [.request (.command 0x9#4 [.int 0])]).inbox = .request (.command 0x9#4 [.int 0]) :: [] :=
  ⟨by decide, fun h => (nomatch h), by decide, rfl⟩

theorem witness_WireRequestsDecodeByTheirLayout_header :
    conforming (withInbox [.request (.wireOut 0x8D011608#32 [])]).cfg = true ∧ ∀ k, 0x8D011608#32 ≠ headerWord k :=
  ⟨by decide, fun k => by cases k <;> decide⟩

/-- A reversed Drive row whose heading is 360, one above the largest. -/
theorem witness_WireRequestsDecodeByTheirLayout_payload :
    0x8D011607#32 = headerWord .drive ∧ ¬ rowPayload .drive [0x00#8, 0x01#8, 0x68#8, 0x01#8] ∧
      rowPayload .drive [0x00#8, 0x01#8, 0x67#8, 0x01#8] := by
  refine ⟨rfl, ?_, 0x00#8, 0x01#8, 0x67#8, .inr ⟨rfl, by decide⟩⟩
  rintro ⟨_, _, _, h | ⟨h, hlt⟩⟩ <;> cases h
  exact absurd hlt (by decide)

theorem witness_DecodeOfEncode :
    (Instr.wireDrive 0xFF#8 359#16 true).wellFormed = true ∧ (Instr.wireDrive 0xFF#8 0xFFFF#16 false).wellFormed = true ∧
      (Instr.wireRawMotors 2#8 0#8 0#8 0#8).wellFormed = true := by decide

theorem witness_EncodeOfDecodedCommand :
    (0xC#4 : BitVec 4).toNat < 0xD ∧ decode (.command 0xC#4 [.seq [255]]) = .ok (.deserLocator [0xFF#8]) := by decide

theorem witness_EncodeOfDecodedWireRow :
    decode (.wireOut 0x8D011607#32 [0x00#8, 0x01#8, 0x67#8, 0x01#8]) = .ok (.wireDrive 0x00#8 359#16 true) := by decide

theorem witness_DecodedInstructionsAreWellFormed : decode (.command 0xA#4 []) = .ok .encSleep := rfl

theorem witness_LocatorRowReportsItsReading :
    State.reset.tail = [] ∧ State.reset.cfg.locRecogOff = 4 ∧
      (0xD8#8 : Byte) ∉ 0x01#8 :: 0x18#8 :: 0x00#8 :: List.replicate 7 0x00#8 ∧
      HoldsIntegers State.reset.cfg
        (0x8D#8 :: 0x01#8 :: 0x18#8 :: 0x00#8 :: 0x3D#8 :: (List.replicate 7 0x00#8 ++ [0xD8#8])) := by decide

theorem witness_EveryRequestCompletes :
    ready State.reset.cfg (.scan [0x8D#8]) = true ∧ ready (withPayloads none (some [])).cfg .wireStartStreaming = true := by
  decide

theorem witness_OnlyScanTouchesTail :
    scannedBytes .encWake = none ∧ exec .encWake State.reset = .next (emitFrame .wake [] State.reset) := ⟨rfl, rfl⟩

theorem witness_OutputsDependOnOperandsOnly :
    scannedBytes (.csum []) = none ∧ State.reset.cfg = (withTail [0x8D#8]).cfg ∧ ready State.reset.cfg (.csum []) = true :=
  ⟨rfl, rfl, rfl⟩

theorem witness_ScanSeesTailAndChunkJoined :
    (withTail [0x8D#8]).tail ++ [0x01#8, 0xD8#8] = [0x8D#8, 0x01#8] ++ [0xD8#8] := by decide

theorem witness_OutputsPresentByRequest :
    exec (.csum []) State.reset = .next (answerCsum (cs []) State.reset) := rfl

theorem witness_StatusByRequest :
    exec .reservedD State.reset = .next (raiseStatus (.illegalOp 0xD#4) State.reset) := rfl

theorem witness_FaultRecordOnlyGrows :
    step (withInbox [.request (.command 0xE#4 [])]) = .next (raiseStatus (.illegalOp 0xE#4) State.reset) := rfl

theorem witness_ConfigurationNeverChanges : step (withInbox [.reset]) = .next (resetBlock State.reset) := rfl

theorem witness_StepTakesEventsInOrder :
    step (withInbox [.reset, .reset]) = .next (resetBlock (withInbox [.reset])) := rfl

/-- A step that runs a SCAN whose tail does not fit, so that it draws a free TAIL and records the overflow. -/
theorem witness_StepKeepsTheInvariant :
    ∃ s : State, RunInvariant s ∧ s.inbox = [.request (.command 0xB#4 [.seq [0x8D, 0x00]])] ∧
      step s = .next (raiseStatus (.tailOverflow 2) (drawTail (withCap 1 []))) :=
  ⟨(withCap 1 []).setInbox [.request (.command 0xB#4 [.seq [0x8D, 0x00]])],
    ⟨by decide, fun _ _ => Nat.zero_le _, fun _ => .inl rfl, by decide, .inl rfl, fun _ h => (nomatch h)⟩, rfl, rfl⟩

end Sys2Proof.Tests
end

/-! What every request and every step keeps (00_scope.md rules R8 and R10; 10_state.md rule R26), and how a step
runs the host's earliest request. -/

namespace Sys2Proof.Machine

/-! ### A request that has run to completion -/

/-- `t` stands at the end of a request begun in `s`: configuration and further events are as before, and a STATUS is on
show (00_scope.md rule R8; 60_exceptions.md rule R190). -/
structure Completed (s t : State) : Prop where
  cfg : t.cfg = s.cfg
  inbox : t.inbox = s.inbox
  status : t.out.status.isSome = true

theorem emitFrame_completed (k : Kind) (payload : Bytes) (s : State) : Completed s (emitFrame k payload s) :=
  ⟨rfl, rfl, rfl⟩

theorem answerCsum_completed (b : Byte) (s : State) : Completed s (answerCsum b s) := ⟨rfl, rfl, rfl⟩

theorem answerResult_completed (r : Result) (s : State) : Completed s (answerResult r s) := ⟨rfl, rfl, rfl⟩

theorem raiseStatus_completed (st : Status) (s : State) : Completed s (raiseStatus st s) := ⟨rfl, rfl, rfl⟩

/-- What a request did before it completed may have changed TAIL, as long as configuration and events stayed. -/
theorem Completed.of_eq_fields {s s' t : State} (h : Completed s' t) (hcfg : s'.cfg = s.cfg)
    (hinbox : s'.inbox = s.inbox) : Completed s t :=
  ⟨h.cfg.trans hcfg, h.inbox.trans hinbox, h.status⟩

theorem decodeLocator_completed (frame : Bytes) (s : State) : Completed s (decodeLocator frame s) := by
  rcases decodeLocator_cases frame s with ⟨_, h⟩ | ⟨_, h⟩ <;> rw [h]
  · exact answerResult_completed _ s
  · exact raiseStatus_completed _ s

theorem reportLast_completed (last : Option Bytes) (s : State) : Completed s (reportLast last s) := by
  rcases reportLast_cases last s with ⟨r, h⟩ | ⟨n, h⟩ <;> rw [h]
  · exact answerResult_completed r s
  · exact raiseStatus_completed _ s

theorem scanChunk_completed (chunk : Bytes) (s : State) : Completed s (scanChunk chunk s) := by
  rcases scanChunk_cases chunk s with ⟨_, h⟩ | ⟨_, h⟩ <;> rw [h]
  · exact (raiseStatus_completed _ (drawTail s)).of_eq_fields rfl rfl
  · exact (reportLast_completed _ (s.setTail _)).of_eq_fields rfl rfl

/-- An instruction that answers a next state has run to completion there. -/
theorem exec_completed {i : Instr} {s t : State} (h : exec i s = .next t) : Completed s t := by
  rcases exec_cases h with ⟨k, payload, rfl⟩ | ⟨b, rfl⟩ | ⟨f, rfl⟩ | ⟨op, rfl⟩ | ⟨chunk, rfl⟩
  · exact emitFrame_completed k payload s
  · exact answerCsum_completed b s
  · exact decodeLocator_completed f s
  · exact raiseStatus_completed _ s
  · exact scanChunk_completed chunk s

/-- A configured frame is emitted once its payload is set (70_reset_and_hazards.md rule R222). -/
theorem emitConfigured_next {k : Kind} {s : State} (h : (streamPayload s.cfg k).isSome = true) :
    ∃ t, emitConfigured k s = .next t := by
  rcases emitConfigured_cases k s with ⟨payload, _, he⟩ | ⟨hnone, _⟩
  · exact ⟨_, he⟩
  · rw [hnone] at h; cases h

/-- Only the four rows of the two streaming kinds can be refused, and only while their payload is OPEN. -/
theorem exec_next_of_ready (i : Instr) (s : State) (h : ready s.cfg i = true) : ∃ t, exec i s = .next t := by
  cases i
  case encCfgStream | wireConfigureStreaming => all_goals exact emitConfigured_next (k := .configureStreaming) h
  case encStartStream | wireStartStreaming => all_goals exact emitConfigured_next (k := .startStreaming) h
  all_goals exact ⟨_, rfl⟩

/-- Settles O49: an instruction that is ready answers a next state, and any next state is a completed one. -/
theorem everyRequestCompletes : Obligations.EveryRequestCompletes := by
  intro i s hready
  obtain ⟨t, ht⟩ := exec_next_of_ready i s hready
  obtain ⟨hcfg, hinbox, hstatus⟩ := exec_completed ht
  exact ⟨t, ht, hcfg, hinbox, hstatus⟩

/-! ### Steps -/

@[simp] theorem resetBlock_cfg (s : State) : (resetBlock s).cfg = s.cfg := rfl

/-- Settles O56, by what a step can do: idle, take a RESET, or run a request to completion. -/
theorem configurationNeverChanges : Obligations.ConfigurationNeverChanges := by
  intro s t hstep
  rcases step_cases hstep with ⟨_, rfl⟩ | ⟨rest, _, rfl⟩ | ⟨r, rest, i, _, _, hexec⟩
  · rfl
  · exact (resetBlock_cfg _).trans (State.setInbox_cfg s rest)
  · exact (exec_completed hexec).cfg.trans (State.setInbox_cfg s rest)

/-- What the fetch finds when the configuration is legal and the earliest event is a request that decodes. -/
theorem fetch_request {s : State} {r : Request} {rest : List HostEvent} {i : Instr} (hc : conforming s.cfg = true)
    (hi : s.inbox = .request r :: rest) (hd : decode r = .ok i) : fetch s = .run i (s.setInbox rest) := by
  simp [fetch, hc, hi, hd]

/-- A step that fetches an instruction is that instruction, run on the state with its event taken. -/
theorem step_of_fetch_run {s t : State} {i : Instr} (h : fetch s = .run i t) : step s = exec i t := by
  simp [step, h]

/-- Settles O38: the fetch finds the decoded request, and the step runs it. -/
theorem stepRunsTheDecodedRequest : Obligations.StepRunsTheDecodedRequest := by
  intro s r rest i hc hi hd
  exact step_of_fetch_run (fetch_request hc hi hd)

/-! ### The state after reset -/

@[simp] theorem seqOf_defaultSeq (k : Kind) : seqOf defaultSeq k = 0x00#8 := by cases k <;> rfl

@[simp] theorem conforming_defaultConfig : conforming defaultConfig = true := rfl

/-- Settles O36: the configuration at reset is `defaultConfig`, which holds the defaults of 00_scope.md rule R10. -/
theorem resetConfiguration : Obligations.ResetConfiguration :=
  ⟨conforming_defaultConfig, rfl, rfl, rfl, rfl, rfl, rfl, seqOf_defaultSeq, rfl, rfl⟩

end Sys2Proof.Machine

/-! State and invariants (10_state.md): which operation touches which field, what a request answers and leaves in TAIL,
and the invariant of a run. -/

namespace Sys2Proof.Machine

/-! ### What the shared operations do to each field -/

@[simp] theorem emitFrame_out (k : Kind) (payload : Bytes) (s : State) :
    (emitFrame k payload s).out = okFrame (buildFrame s.cfg k payload) := rfl

@[simp] theorem answerCsum_out (b : Byte) (s : State) : (answerCsum b s).out = okCsum b := rfl

@[simp] theorem answerResult_out (r : Result) (s : State) : (answerResult r s).out = okResult r := rfl
@[simp] theorem answerResult_tail (r : Result) (s : State) : (answerResult r s).tail = s.tail := rfl

@[simp] theorem raiseStatus_out (st : Status) (s : State) : (raiseStatus st s).out = onlyStatus st := rfl
@[simp] theorem raiseStatus_tail (st : Status) (s : State) : (raiseStatus st s).tail = s.tail := rfl

@[simp] theorem decodeLocator_tail (frame : Bytes) (s : State) : (decodeLocator frame s).tail = s.tail := by
  rcases decodeLocator_cases frame s with ⟨_, h⟩ | ⟨_, h⟩ <;> simp [h]

@[simp] theorem reportLast_tail (last : Option Bytes) (s : State) : (reportLast last s).tail = s.tail := by
  rcases reportLast_cases last s with ⟨r, h⟩ | ⟨n, h⟩ <;> simp [h]

/-! ### Which request does what -/

/-- The OP of a reserved opcode (60_exceptions.md rule R195). -/
def reservedOp : Instr → Option (BitVec 4)
  | .reservedD => some 0xD#4
  | .reservedE => some 0xE#4
  | .reservedF => some 0xF#4
  | _ => none

/-- Instruction `i`, run in `s`, ended in `t`: what each class of requests does (30_encoding.md rule R62). -/
inductive Ran (s : State) : Instr → State → Prop where
  | frame {i : Instr} {k : Kind} (payload : Bytes) (hkind : frameKind i = some k)
      (hbytes : scannedBytes i = none) : Ran s i (emitFrame k payload s)
  | csum (b : Bytes) : Ran s (.csum b) (answerCsum (cs b) s)
  | deserLocator (f : Bytes) : Ran s (.deserLocator f) (decodeLocator f s)
  | reserved {i : Instr} {op : BitVec 4} (hop : reservedOp i = some op) : Ran s i (raiseStatus (.illegalOp op) s)
  | scan {i : Instr} {chunk : Bytes} (hkind : frameKind i = none) (hbytes : scannedBytes i = some chunk) :
      Ran s i (scanChunk chunk s)

/-- A configured frame that is answered at all is emitted. -/
theorem emitConfigured_eq_next {k : Kind} {s t : State} (h : emitConfigured k s = .next t) :
    ∃ payload, t = emitFrame k payload s := by
  rcases emitConfigured_cases k s with ⟨payload, _, he⟩ | ⟨_, he⟩ <;> rw [he] at h <;> cases h
  exact ⟨payload, rfl⟩

/-- `exec_cases` with the class of the instruction kept. -/
theorem exec_ran {i : Instr} {s t : State} (h : exec i s = .next t) : Ran s i t := by
  cases i
  case csum b => cases h; exact .csum b
  case deserLocator f => cases h; exact .deserLocator f
  case reservedD | reservedE | reservedF => all_goals cases h; exact .reserved rfl
  case scan | wireLocatorReport => all_goals cases h; exact .scan rfl rfl
  case encCfgStream | encStartStream | wireConfigureStreaming | wireStartStreaming =>
    all_goals
      obtain ⟨payload, rfl⟩ := emitConfigured_eq_next h
      exact .frame payload rfl rfl
  all_goals cases h; exact .frame _ rfl rfl

/-- Settles O50: each class of requests but the scanning one writes outputs and fault record alone. -/
theorem onlyScanTouchesTail : Obligations.OnlyScanTouchesTail := by
  intro i s t hnoscan hexec
  cases exec_ran hexec with
  | frame payload _ _ => rfl
  | csum b => rfl
  | deserLocator f => rcases decodeLocator_cases f s with ⟨_, h⟩ | ⟨_, h⟩ <;> rw [h] <;> rfl
  | reserved _ => rfl
  | scan _ hbytes => rw [hnoscan] at hbytes; cases hbytes

/-! ### What a request answers -/

/-- A request begun in `s` answered in `t`: it ended OK and recorded nothing, or it shows one fault status, alone, and
recorded it (10_state.md rule R28; 60_exceptions.md rules R199 and R200). -/
inductive Answered (s t : State) : Prop where
  | ok (hlegal : OutputsLegal t.out) (hstatus : t.out.status = some .ok) (hfaults : t.faults = s.faults)
  | fault {st : Status} (hst : st ≠ .ok) (hout : t.out = onlyStatus st) (hfaults : t.faults = s.faults ++ [st])

theorem emitFrame_answered (k : Kind) (payload : Bytes) (s : State) : Answered s (emitFrame k payload s) :=
  .ok (.inr (.inl ⟨_, rfl⟩)) rfl rfl

theorem answerCsum_answered (b : Byte) (s : State) : Answered s (answerCsum b s) :=
  .ok (.inr (.inr (.inl ⟨_, rfl⟩))) rfl rfl

theorem answerResult_answered (r : Result) (s : State) : Answered s (answerResult r s) :=
  .ok (.inr (.inr (.inr (.inl ⟨_, rfl⟩)))) rfl rfl

theorem raiseStatus_answered {st : Status} (hst : st ≠ .ok) (s : State) : Answered s (raiseStatus st s) :=
  .fault hst rfl rfl

theorem decodeLocator_answered (frame : Bytes) (s : State) : Answered s (decodeLocator frame s) := by
  rcases decodeLocator_cases frame s with ⟨_, h⟩ | ⟨_, h⟩ <;> rw [h]
  · exact answerResult_answered _ s
  · exact raiseStatus_answered (by nofun) s

/-- A SCAN answers a result and records nothing, or raises one fault status. -/
theorem scanChunk_out_cases (chunk : Bytes) (s : State) :
    (∃ r, (scanChunk chunk s).out = okResult r ∧ (scanChunk chunk s).faults = s.faults) ∨
      ∃ st, st ≠ .ok ∧ (scanChunk chunk s).out = onlyStatus st ∧ (scanChunk chunk s).faults = s.faults ++ [st] := by
  rcases scanChunk_cases chunk s with ⟨_, h⟩ | ⟨_, h⟩ <;> rw [h]
  · exact .inr ⟨_, by nofun, rfl, rfl⟩
  · rcases reportLast_cases (scanBuffer (s.tail ++ chunk)).1.getLast? (s.setTail (scanBuffer (s.tail ++ chunk)).2) with
      ⟨r, hr⟩ | ⟨n, hr⟩ <;> rw [hr]
    · exact .inl ⟨r, rfl, rfl⟩
    · exact .inr ⟨_, by nofun, rfl, rfl⟩

theorem scanChunk_answered (chunk : Bytes) (s : State) : Answered s (scanChunk chunk s) := by
  rcases scanChunk_out_cases chunk s with ⟨r, hout, hfaults⟩ | ⟨st, hst, hout, hfaults⟩
  · exact .ok (.inr (.inr (.inr (.inl ⟨r, hout⟩)))) (by rw [hout]; rfl) hfaults
  · exact .fault hst hout hfaults

/-- Every instruction that answers a next state answered as rule R28 says. -/
theorem exec_answered {i : Instr} {s t : State} (h : exec i s = .next t) : Answered s t := by
  rcases exec_cases h with ⟨k, payload, rfl⟩ | ⟨b, rfl⟩ | ⟨f, rfl⟩ | ⟨op, rfl⟩ | ⟨chunk, rfl⟩
  · exact emitFrame_answered k payload s
  · exact answerCsum_answered b s
  · exact decodeLocator_answered f s
  · exact raiseStatus_answered (by nofun) s
  · exact scanChunk_answered chunk s

theorem Answered.outputsLegal {s t : State} (h : Answered s t) : OutputsLegal t.out := by
  cases h with
  | ok hlegal _ _ => exact hlegal
  | fault hst hout _ => exact .inr (.inr (.inr (.inr ⟨_, hst, hout⟩)))

theorem Answered.faults_subset {s t : State} (h : Answered s t) : s.faults ⊆ t.faults := by
  cases h with
  | ok _ _ hfaults => rw [hfaults]; exact List.Subset.refl _
  | fault _ _ hfaults => rw [hfaults]; exact List.subset_append_left _ _

theorem Answered.ok_not_recorded {s t : State} (h : Answered s t) (hs : Status.ok ∉ s.faults) :
    Status.ok ∉ t.faults := by
  cases h with
  | ok _ _ hfaults => rwa [hfaults]
  | fault hst _ hfaults => simp [hfaults, hs, hst.symm]

/-- A fault status on show is the latest entry of the record. -/
theorem Answered.shown_getLast? {s t : State} (h : Answered s t) {st : Status} (hshown : t.out.status = some st)
    (hst : st ≠ .ok) : t.faults.getLast? = some st := by
  cases h with
  | ok _ hstatus _ => rw [hstatus] at hshown; cases hshown; exact absurd rfl hst
  | fault _ hout hfaults =>
    rw [hout] at hshown
    cases hshown
    simp [hfaults]

/-- Settles O53: the class of a request says which output an OK brings, and a fault status stands alone. -/
theorem outputsPresentByRequest : Obligations.OutputsPresentByRequest := by
  intro i s t hexec
  cases exec_ran hexec with
  | frame payload hkind hbytes =>
    have hcsum : ¬ ∃ b, i = .csum b := by rintro ⟨b, rfl⟩; cases hkind
    have hdeser : ¬ ∃ f, i = .deserLocator f := by rintro ⟨f, rfl⟩; cases hkind
    simp [okFrame, hkind, hbytes, hcsum, hdeser]
  | csum b => simp [okCsum, frameKind, scannedBytes]
  | deserLocator f =>
    rcases decodeLocator_cases f s with ⟨_, h⟩ | ⟨_, h⟩ <;> rw [h]
    · simp [okResult, readingOf, frameKind]
    · simp [onlyStatus]
  | reserved hop => simp [onlyStatus]
  | @scan _ chunk hkind hbytes =>
    have hcsum : ¬ ∃ b, i = .csum b := by rintro ⟨b, rfl⟩; cases hbytes
    have hdeser : ¬ ∃ f, i = .deserLocator f := by rintro ⟨f, rfl⟩; cases hbytes
    rcases scanChunk_out_cases chunk s with ⟨r, hout, _⟩ | ⟨st, hst, hout, _⟩ <;> rw [hout]
    · simp [okResult, hkind, hbytes, hcsum, hdeser]
    · simp [onlyStatus, hst]

/-! ### What the scanner leaves in TAIL -/

/-- A search that answers a place found its marker there. -/
theorem drop_of_firstFrom {m : Byte} {i k : Nat} {b : Bytes} (h : firstFrom m i b = some k) :
    b.drop k = m :: b.drop (k + 1) := by
  obtain ⟨j, hj, rfl⟩ := Option.map_eq_some_iff.mp h
  obtain ⟨hlt, hm, -⟩ := List.findIdx?_eq_some_iff_getElem.mp hj
  have hk : i + j < b.length := by simpa [Nat.lt_sub_iff_add_lt'] using hlt
  have hmarker : b[i + j] = m := by simpa using hm
  rw [List.drop_eq_getElem_cons hk, hmarker]

/-- What the loop leaves is nothing, or begins with a START after which it found no END (42_frame_scanner.md rules R143
and R144). -/
theorem scanLoop_tailMarked (turns : Nat) (b : Bytes) (i : Nat) (found : List Bytes) :
    TailMarked (scanLoop turns b i found).2 := by
  induction turns generalizing i found with
  | zero => exact .inl rfl
  | succ turns ih =>
    cases hs : firstFrom startMarker i b with
    | none => exact .inl (by simp [scanLoop, hs])
    | some st =>
      cases he : firstFrom endMarker (st + 1) b with
      | none =>
        refine .inr ⟨b.drop (st + 1), ?_, (firstFrom_eq_none _ _ _).mp he⟩
        simp only [scanLoop, hs, he]
        exact drop_of_firstFrom hs
      | some e => simpa [scanLoop, hs, he] using ih (e + 1) (found ++ [slice b st e])

theorem scanBuffer_tailMarked (b : Bytes) : TailMarked (scanBuffer b).2 := scanLoop_tailMarked _ b 0 []

theorem overflows_eq_false_iff (c : Config) (t : Bytes) : overflows c t = false ↔ TailFits c t := by
  unfold overflows TailFits
  cases c.tailCap <;> simp

theorem capTail_fits (c : Config) (t : Bytes) : TailFits c (capTail c t) := fun n h => capTail_length_le c t n h

/-- What a request or RESET begun in `s` did to TAIL: kept it, wrote one of the marker form that fits, or overflowed and
left unspecified bytes that fit (10_state.md rules R24 and R25; log 5). -/
inductive TailAfter (s t : State) : Prop where
  | kept (h : t.tail = s.tail)
  | written (hmarked : TailMarked t.tail) (hfits : TailFits s.cfg t.tail)
  | overflowed {n : Nat} (hstatus : t.out.status = some (.tailOverflow n)) (hfits : TailFits s.cfg t.tail)

theorem scanChunk_tailAfter (chunk : Bytes) (s : State) : TailAfter s (scanChunk chunk s) := by
  rcases scanChunk_cases chunk s with ⟨_, h⟩ | ⟨hfits, h⟩ <;> rw [h]
  · exact .overflowed rfl (capTail_fits s.cfg _)
  · refine .written ?_ ?_ <;> rw [reportLast_tail, State.setTail_tail]
    · exact scanBuffer_tailMarked _
    · exact (overflows_eq_false_iff s.cfg _).mp hfits

theorem exec_tailAfter {i : Instr} {s t : State} (h : exec i s = .next t) : TailAfter s t := by
  rcases exec_cases h with ⟨k, payload, rfl⟩ | ⟨b, rfl⟩ | ⟨f, rfl⟩ | ⟨op, rfl⟩ | ⟨chunk, rfl⟩
  · exact .kept rfl
  · exact .kept rfl
  · exact .kept (decodeLocator_tail f s)
  · exact .kept rfl
  · exact scanChunk_tailAfter chunk s

/-- TAIL fits afterwards if it did before. -/
theorem TailAfter.fits {s t : State} (h : TailAfter s t) (hs : TailFits s.cfg s.tail) : TailFits s.cfg t.tail := by
  cases h with
  | kept htail => rwa [htail]
  | written _ hfits => exact hfits
  | overflowed _ hfits => exact hfits

/-- TAIL keeps the marker form unless an overflow is on show. -/
theorem TailAfter.marked {s t : State} (h : TailAfter s t) (hs : TailMarked s.tail)
    (hshown : ∀ n, t.out.status ≠ some (.tailOverflow n)) : TailMarked t.tail := by
  cases h with
  | kept htail => rwa [htail]
  | written hmarked _ => exact hmarked
  | overflowed hstatus _ => exact absurd hstatus (hshown _)

/-- Settles O27, by what a step can do: only an overflow leaves TAIL without the marker form. -/
theorem tailMarkerFormIsKept : Obligations.TailMarkerFormIsKept := by
  refine ⟨.inl rfl, fun s t hs hstep hshown => ?_⟩
  rcases step_cases hstep with ⟨_, rfl⟩ | ⟨rest, _, rfl⟩ | ⟨r, rest, i, _, _, hexec⟩
  · exact hs
  · exact .inl rfl
  · exact (exec_tailAfter hexec).marked hs hshown

/-- A SCAN reads TAIL and its chunk only joined together (42_frame_scanner.md rule R141). -/
theorem scanChunk_setTail {s : State} {t a b : Bytes} (h : s.tail ++ a = t ++ b) :
    scanChunk b (s.setTail t) = scanChunk a s := by
  simp only [scanChunk, State.setTail_tail, State.setTail_cfg, h]
  rfl

/-- Settles O52: both SCANs end in the same state, after an overflow too, because both draw the same free TAIL. -/
theorem scanSeesTailAndChunkJoined : Obligations.ScanSeesTailAndChunkJoined := fun s _ a _ hjoin =>
  ⟨scanChunk a s, scanChunk a s, rfl, congrArg Host.Outcome.next (scanChunk_setTail hjoin), rfl, rfl, fun _ => rfl⟩

/-! ### The invariant of a run -/

/-- Settles O35: the fields of the reset state (10_state.md rule R31). -/
theorem resetState : Obligations.ResetState := ⟨rfl, rfl⟩

/-- Settles O59: at reset TAIL and the record are empty and nothing is on show. -/
theorem resetMeetsTheInvariant : Obligations.ResetMeetsTheInvariant where
  conforms := conforming_defaultConfig
  fits _ _ := Nat.zero_le _
  marked _ := .inl rfl
  recordFaults := List.not_mem_nil
  outputs := .inl rfl
  shown := nofun

/-- Events still to be taken are no part of the invariant. -/
theorem RunInvariant.setInbox {s : State} (h : RunInvariant s) (es : List HostEvent) : RunInvariant (s.setInbox es) where
  conforms := h.conforms
  fits := h.fits
  marked := h.marked
  recordFaults := h.recordFaults
  outputs := h.outputs
  shown := h.shown

/-- RESET keeps the invariant, whatever TAIL was (70_reset_and_hazards.md rule R220). -/
theorem RunInvariant.after_reset {s : State} (h : RunInvariant s) : RunInvariant (resetBlock s) where
  conforms := h.conforms
  fits _ _ := Nat.zero_le _
  marked _ := .inl rfl
  recordFaults := h.recordFaults
  outputs := .inl rfl
  shown := nofun

/-- An overflow on show is in the record. -/
theorem Answered.no_overflow_shown {s t : State} (h : Answered s t) (ht : NoOverflowRecorded t) (n : Nat) :
    t.out.status ≠ some (.tailOverflow n) :=
  fun hshown => ht n (List.mem_of_getLast? (h.shown_getLast? hshown nofun))

/-- A request that runs to completion keeps the invariant. A record without overflow held none before, and then TAIL had
the marker form and still has it. -/
theorem RunInvariant.after_exec {i : Instr} {s t : State} (h : RunInvariant s) (hexec : exec i s = .next t) :
    RunInvariant t := by
  have hcfg := (exec_completed hexec).cfg
  have hans := exec_answered hexec
  have htail := exec_tailAfter hexec
  refine ⟨by rw [hcfg]; exact h.conforms, by rw [hcfg]; exact htail.fits h.fits, fun ht => ?_,
    hans.ok_not_recorded h.recordFaults, hans.outputsLegal, fun _ => hans.shown_getLast?⟩
  have hs : NoOverflowRecorded s := fun n hn => ht n (hans.faults_subset hn)
  exact htail.marked (h.marked hs) (hans.no_overflow_shown ht)

/-- Settles O58, by what a step can do: idle, take a RESET, or run a request to completion. -/
theorem stepKeepsTheInvariant : Obligations.StepKeepsTheInvariant := by
  intro s t hs hstep
  rcases step_cases hstep with ⟨_, rfl⟩ | ⟨rest, _, rfl⟩ | ⟨r, rest, i, _, _, hexec⟩
  · exact hs
  · exact (hs.setInbox rest).after_reset
  · exact (hs.setInbox rest).after_exec hexec

/-! ### Legal configurations, and steps that run nothing -/

theorem tailCapLegal_iff (o : Option Nat) : tailCapLegal o = true ↔ ∀ n, o = some n → 1 ≤ n := by
  cases o <;> simp [tailCapLegal]

theorem conforming_iff (c : Config) : conforming c = true ↔
    1 ≤ c.locRecogOff ∧ 1 ≤ c.locXOff ∧ 1 ≤ c.locYOff ∧ ∀ n, c.tailCap = some n → 1 ≤ n := by
  simp only [conforming, Bool.and_eq_true, decide_eq_true_eq, tailCapLegal_iff, and_assoc]

/-- With a legal configuration and no event the block waits (log 1). -/
theorem step_idle {s : State} (hc : conforming s.cfg = true) (hi : s.inbox = []) : step s = .next s := by
  simp [step, fetch, hc, hi]

/-- An illegal configuration is refused before any event is looked at (10_state.md rule R26; log 3). -/
theorem step_nonconforming {s : State} (hc : conforming s.cfg = false) :
    step s = .refused .nonconformingInstance := by
  simp [step, fetch, hc]

/-- Settles O39: the legal values of rule R26, and the first two things a fetch looks for. -/
theorem idleAndNonconformingSteps : Obligations.IdleAndNonconformingSteps :=
  ⟨conforming_iff, fun _ => step_idle, fun _ => step_nonconforming⟩

end Sys2Proof.Machine

/-! Byte order and ordering (20_memory.md): where the floats of a frame stand, which outputs depend on operands alone,
and the order in which events are taken. -/

namespace Sys2Proof.Machine

/-! ### Big-endian words in a frame -/

/-- A word packed by `be32` at an offset reads back there, whatever stands before and after it (20_memory.md rules R42
and R45). -/
theorem wordAt_of_drop_eq {frame rest : Bytes} {o : Nat} {w : Word32} (h : frame.drop o = be32 w ++ rest) :
    wordAt frame o = w := by
  have hbyte (j : Nat) : frame.getD (o + j) 0#8 = (be32 w ++ rest).getD j 0#8 := by
    rw [← h, List.getD_eq_getElem?_getD, List.getD_eq_getElem?_getD, List.getElem?_drop]
  calc wordAt frame o
      = (be32 w ++ rest).getD 0 0#8 ++ (be32 w ++ rest).getD 1 0#8 ++ (be32 w ++ rest).getD 2 0#8 ++
          (be32 w ++ rest).getD 3 0#8 := by rw [← hbyte 0, ← hbyte 1, ← hbyte 2, ← hbyte 3]; rfl
    _ = w := append_be32 w

/-- Settles O12: the frame is the one built around `dtpPayload`, and dropping its bytes before 5, 9, 13 and 17 leaves
the next word in front. -/
theorem dtpFloatsReadBackAtTheirOffsets : Obligations.DtpFloatsReadBackAtTheirOffsets := by
  intro yaw x y speed s
  exact ⟨buildFrame s.cfg .driveToPositionSI (dtpPayload yaw x y speed), rfl, rfl,
    wordAt_of_drop_eq rfl, wordAt_of_drop_eq rfl, wordAt_of_drop_eq rfl, wordAt_of_drop_eq rfl, rfl⟩

/-! ### Outputs that depend on operands and configuration alone -/

theorem emitFrame_out_congr {s1 s2 : State} (hcfg : s1.cfg = s2.cfg) (k : Kind) (payload : Bytes) :
    (emitFrame k payload s1).out = (emitFrame k payload s2).out := by
  rw [emitFrame_out, emitFrame_out, hcfg]

/-- A configured frame that is answered carries the payload of the configuration (30_encoding.md rule R67). -/
theorem emitConfigured_payload {k : Kind} {s t : State} (h : emitConfigured k s = .next t) :
    ∃ payload, streamPayload s.cfg k = some payload ∧ t = emitFrame k payload s := by
  rcases emitConfigured_cases k s with ⟨payload, hset, he⟩ | ⟨_, he⟩ <;> rw [he] at h <;> cases h
  exact ⟨payload, hset, rfl⟩

theorem emitConfigured_out_congr {k : Kind} {s1 s2 t1 t2 : State} (hcfg : s1.cfg = s2.cfg)
    (h1 : emitConfigured k s1 = .next t1) (h2 : emitConfigured k s2 = .next t2) : t1.out = t2.out := by
  obtain ⟨p1, hp1, rfl⟩ := emitConfigured_payload h1
  obtain ⟨p2, hp2, rfl⟩ := emitConfigured_payload h2
  have hp : p1 = p2 := Option.some.inj (by rw [← hp1, ← hp2, hcfg])
  rw [hp]
  exact emitFrame_out_congr hcfg k p2

theorem decodeLocator_out (frame : Bytes) (s : State) :
    (decodeLocator frame s).out =
      if locatorLength s.cfg ≤ frame.length then okResult (readingOf s.cfg frame)
      else onlyStatus (.shortLocator frame.length) := by
  rcases decodeLocator_cases frame s with ⟨hfits, h⟩ | ⟨hshort, h⟩ <;> rw [h]
  · rw [if_pos hfits, answerResult_out]
  · rw [if_neg (Nat.not_le.mpr hshort), raiseStatus_out]

/-- Two runs of an instruction that is no SCAN, begun in states of one configuration, show the same outputs. -/
theorem exec_out_congr {i : Instr} {s1 s2 t1 t2 : State} (hnoscan : scannedBytes i = none) (hcfg : s1.cfg = s2.cfg)
    (h1 : exec i s1 = .next t1) (h2 : exec i s2 = .next t2) : t1.out = t2.out := by
  cases i
  case csum | reservedD | reservedE | reservedF => all_goals cases h1; cases h2; rfl
  case deserLocator f =>
    cases h1
    cases h2
    rw [decodeLocator_out, decodeLocator_out, hcfg]
  case scan | wireLocatorReport => all_goals cases hnoscan
  case encCfgStream | encStartStream | wireConfigureStreaming | wireStartStreaming =>
    all_goals exact emitConfigured_out_congr hcfg h1 h2
  all_goals cases h1; cases h2; exact emitFrame_out_congr hcfg _ _

/-- Settles O51: both runs complete, because readiness is a matter of the configuration, and their outputs agree. -/
theorem outputsDependOnOperandsOnly : Obligations.OutputsDependOnOperandsOnly := by
  intro i s1 s2 hnoscan hcfg hready
  obtain ⟨t1, h1⟩ := exec_next_of_ready i s1 hready
  obtain ⟨t2, h2⟩ := exec_next_of_ready i s2 (hcfg ▸ hready)
  exact ⟨t1, t2, h1, h2, exec_out_congr hnoscan hcfg h1 h2⟩

/-! ### The order of events -/

@[simp] theorem resetBlock_inbox (s : State) : (resetBlock s).inbox = s.inbox := rfl

/-- Settles O57, by what a step can do: the fetch takes the first event, and neither RESET nor a request that runs to
completion touches the rest. -/
theorem stepTakesEventsInOrder : Obligations.StepTakesEventsInOrder := by
  intro s t hstep
  rcases step_cases hstep with ⟨hempty, rfl⟩ | ⟨rest, hinbox, rfl⟩ | ⟨r, rest, i, hinbox, _, hexec⟩
  · rw [hempty, List.drop_nil]
  · rw [hinbox, resetBlock_inbox, State.setInbox_inbox, List.drop_one, List.tail_cons]
  · rw [hinbox, (exec_completed hexec).inbox, State.setInbox_inbox, List.drop_one, List.tail_cons]

end Sys2Proof.Machine

/-! Encoding (30_encoding.md), the frames: the layout of every emitted frame, the outbound wire rows as frames, and the
encoder requests that emit the same ones. -/

namespace Sys2Proof.Machine

/-! ### The layout of an emitted frame (rules R64 to R66) -/

/-- The two forms of the checksum in 40_checksum.md rule R91 agree. -/
theorem cs_eq_checksumByte (b : Bytes) : cs b = checksumByte b := by
  apply BitVec.eq_of_toNat_eq
  simp only [cs, lo8, checksumByte, BitVec.toNat_ofInt, BitVec.toNat_ofNat]
  omega

theorem frameBody_eq_headerBytes (c : Config) (k : Kind) (payload : Bytes) :
    frameBody c k payload = headerBytes c k ++ payload := by
  cases k <;> rfl

theorem buildFrame_eq_sealedFrame (c : Config) (k : Kind) (payload : Bytes) :
    buildFrame c k payload = sealedFrame (headerBytes c k ++ payload) := by
  rw [buildFrame, cs_eq_checksumByte, frameBody_eq_headerBytes]
  rfl

/-- Emitting a frame of a kind seals the kind's header and the payload, and changes the outputs alone. -/
theorem emitFrame_eq_sealedFrame (k : Kind) (payload : Bytes) (s : State) :
    emitFrame k payload s = { s with out := okFrame (sealedFrame (headerBytes s.cfg k ++ payload)) } := by
  rw [emitFrame_eq, buildFrame_eq_sealedFrame]
  rfl

theorem exec_eq_sealedFrame {i : Instr} {s : State} {k : Kind} {payload : Bytes}
    (h : exec i s = .next (emitFrame k payload s)) :
    exec i s = .next { s with out := okFrame (sealedFrame (headerBytes s.cfg k ++ payload)) } := by
  rw [h, emitFrame_eq_sealedFrame]

@[simp] theorem length_headerBytes (c : Config) (k : Kind) : (headerBytes c k).length = 4 := by
  cases k <;> rfl

@[simp] theorem length_sealedFrame (body : Bytes) : (sealedFrame body).length = body.length + 3 := by
  simp [sealedFrame]

/-- A kind with a configured payload emits it (30_encoding.md rule R67). -/
theorem emitConfigured_of_payload {k : Kind} {s : State} {payload : Bytes} (h : streamPayload s.cfg k = some payload) :
    emitConfigured k s = .next (emitFrame k payload s) := by
  simp [emitConfigured, h]

/-- An encoder request whose payload is set emits a frame of its kind around a payload of the kind's length. -/
theorem exec_of_encoderKind {i : Instr} {k : Kind} {s : State} (hkind : encoderKind i = some k)
    (hready : ready s.cfg i = true) :
    ∃ payload : Bytes, payload.length = payloadLength s.cfg k ∧ exec i s = .next (emitFrame k payload s) := by
  cases i
  case encCfgStream | encStartStream =>
    all_goals
      cases hkind
      obtain ⟨payload, hset⟩ := Option.isSome_iff_exists.mp hready
      exact ⟨payload, by simp [payloadLength, hset], emitConfigured_of_payload hset⟩
  case encDrive | encRawMotors | deriveMotor | encDtpSi | encResetYaw | encSetAllLeds | encWake | encSleep =>
    all_goals
      cases hkind
      refine ⟨_, ?_, rfl⟩
      rfl
  all_goals cases hkind

/-- Settles O4: every encoder request emits the frame of its kind, and an emitted frame is sealed around its header. -/
theorem encodersEmitTheWireLayout : Obligations.EncodersEmitTheWireLayout := by
  intro i k s hkind hready
  obtain ⟨payload, hlength, hexec⟩ := exec_of_encoderKind hkind hready
  refine ⟨payload, hlength, ?_, exec_eq_sealedFrame hexec⟩
  rw [length_sealedFrame, List.length_append, length_headerBytes, hlength]
  omega

/-! ### Packed fields -/

/-- The high and the low byte of a heading, as numbers (00_scope.md rule R14). -/
theorem be16_eq_ofNat (v : BitVec 16) :
    be16 v = [BitVec.ofNat 8 (v.toNat / 256), BitVec.ofNat 8 (v.toNat % 256)] := by
  have hhigh : v.extractLsb' 8 8 = BitVec.ofNat 8 (v.toNat / 256) := by
    rw [BitVec.extractLsb', Nat.shiftRight_eq_div_pow]
  have hlow : v.extractLsb' 0 8 = BitVec.ofNat 8 (v.toNat % 256) := by
    apply BitVec.eq_of_toNat_eq
    simp
  rw [be16, hhigh, hlow]

theorem be32_eq_wordBytes (w : Word32) : be32 w = wordBytes w := by
  simp [be32, wordBytes, BitVec.extractLsb', Nat.shiftRight_eq_div_pow]

theorem toNat_append_byte {n : Nat} (v : BitVec n) (b : Byte) : (v ++ b).toNat = v.toNat * 256 + b.toNat := by
  rw [BitVec.toNat_append, ← Nat.shiftLeft_add_eq_or_of_lt b.isLt, Nat.shiftLeft_eq]

theorem ofNat_eq_of_mod {n : Nat} {b : Byte} (h : n % 256 = b.toNat) : BitVec.ofNat 8 n = b :=
  BitVec.eq_of_toNat_eq (by rw [BitVec.toNat_ofNat]; exact h)

/-- The bytes of a heading put together from two bytes are those bytes. -/
theorem be16_append (high low : Byte) : be16 (high ++ low) = [high, low] := by
  have hhigh := high.isLt
  have hlow := low.isLt
  rw [be16_eq_ofNat, toNat_append_byte, ofNat_eq_of_mod (b := high) (by omega), ofNat_eq_of_mod (b := low) (by omega)]

/-- The bytes of a word put together from four bytes are those bytes. -/
theorem be32_append (b0 b1 b2 b3 : Byte) : be32 (b0 ++ b1 ++ b2 ++ b3) = [b0, b1, b2, b3] := by
  have h0 := b0.isLt
  have h1 := b1.isLt
  have h2 := b2.isLt
  have h3 := b3.isLt
  rw [be32_eq_wordBytes, wordBytes, toNat_append_byte, toNat_append_byte, toNat_append_byte,
    ofNat_eq_of_mod (b := b0) (by omega), ofNat_eq_of_mod (b := b1) (by omega), ofNat_eq_of_mod (b := b2) (by omega),
    ofNat_eq_of_mod (b := b3) (by omega)]

@[simp] theorem lo8_toNat (b : Byte) : lo8 (b.toNat : Int) = b := by simp [lo8]

@[simp] theorem headingField_toNat (h : BitVec 16) : headingField (h.toNat : Int) = h := by simp [headingField]

/-! ### The outbound wire rows as frames (rules R66 and R67; log 2) -/

/-- Settles O17: each row emits the frame of its kind, whose payload fields are spelled out as numbers. -/
theorem wireRowsFrameTheirPayloadFields : Obligations.WireRowsFrameTheirPayloadFields := by
  refine ⟨fun speed heading reverse s => ?_, fun lm ls rm rs s => exec_eq_sealedFrame (k := .rawMotors) rfl,
    fun yaw x y speed s => ?_, fun red green blue s => exec_eq_sealedFrame (k := .setAllLEDs) rfl,
    fun s => ⟨exec_eq_sealedFrame (k := .resetYaw) (payload := []) rfl,
      exec_eq_sealedFrame (k := .wake) (payload := []) rfl, exec_eq_sealedFrame (k := .sleep) (payload := []) rfl⟩,
    fun s p hp => exec_eq_sealedFrame (k := .configureStreaming) (emitConfigured_of_payload hp),
    fun s p hp => exec_eq_sealedFrame (k := .startStreaming) (emitConfigured_of_payload hp)⟩
  · rw [exec_eq_sealedFrame (payload := drivePayload speed heading reverse) rfl, drivePayload, be16_eq_ofNat]
    rfl
  · rw [exec_eq_sealedFrame (payload := dtpPayload yaw x y speed) rfl]
    simp only [dtpPayload, be32_eq_wordBytes]
    rfl

/-! ### The encoder request behind an outbound wire row (log 2) -/

/-- An encoder request that does what a frame-emitting instruction does. A reversed Drive row gives its speed as a
negative integer, 256 more in magnitude so that 0 has a sign, and its heading half a turn back. -/
def encoderRequest : Instr → Instr
  | .wireDrive speed heading false => .encDrive speed.toNat heading.toNat
  | .wireDrive speed heading true => .encDrive (-(speed.toNat + 256)) (heading.toNat + 180)
  | .wireRawMotors lm ls rm rs => .encRawMotors lm.toNat ls.toNat rm.toNat rs.toNat
  | .wireDriveToPositionSI yaw x y speed => .encDtpSi yaw x y speed
  | .wireResetYaw => .encResetYaw
  | .wireConfigureStreaming => .encCfgStream
  | .wireStartStreaming => .encStartStream
  | .wireSetAllLEDs red green blue => .encSetAllLeds red.toNat green.toNat blue.toNat
  | .wireWake => .encWake
  | .wireSleep => .encSleep
  | i => i

theorem encoderKind_encoderRequest {i : Instr} {k : Kind} (hkind : frameKind i = some k) :
    encoderKind (encoderRequest i) = some k := by
  cases i
  case wireDrive speed heading reverse => cases reverse <;> exact hkind
  all_goals exact hkind

/-- An encoder request is a command that decodes to it. -/
theorem exists_command_of_encoderKind {j : Instr} {k : Kind} (hkind : encoderKind j = some k) :
    ∃ (op : BitVec 4) (slots : List Slot), encode j = .command op slots ∧ decode (.command op slots) = .ok j := by
  cases j
  case encDrive | encRawMotors | deriveMotor | encDtpSi | encResetYaw | encCfgStream | encStartStream |
      encSetAllLeds | encWake | encSleep =>
    all_goals exact ⟨_, _, rfl, rfl⟩
  all_goals cases hkind

/-- A mode byte that is legal is sent as it is (41_frame_encoder.md rule R103). -/
theorem coerceMode_of_modeByteOk {m : Byte} (h : modeByteOk m = true) : coerceMode m.toNat = m.toNat := by
  have hle : m.toNat ≤ 2 := of_decide_eq_true h
  exact if_pos (by omega)

theorem exec_wireDrive_reverse (speed : Byte) {heading : BitVec 16} (h : heading.toNat < 360) (s : State) :
    exec (.wireDrive speed heading true) s = exec (.encDrive (-(speed.toNat + 256)) (heading.toNat + 180)) s := by
  have hneg : -((speed.toNat : Int) + 256) < 0 := by omega
  have hspeed : lo8 (effSpeed (-(speed.toNat + 256))) = speed := by
    rw [effSpeed, if_pos hneg]
    apply BitVec.eq_of_toNat_eq
    have := speed.isLt
    simp only [lo8, BitVec.toNat_ofInt]
    omega
  have hheading : effHeading (-(speed.toNat + 256)) (heading.toNat + 180) = heading.toNat := by
    rw [effHeading, if_pos hneg]
    omega
  have hflag : revFlag (-(speed.toNat + 256)) = true := decide_eq_true hneg
  simp only [exec, execWireDrive, execEncDrive, hspeed, hheading, hflag, headingField_toNat]

theorem exec_wireDrive_forward (speed : Byte) (heading : BitVec 16) (s : State) :
    exec (.wireDrive speed heading false) s = exec (.encDrive speed.toNat heading.toNat) s := by
  have hpos : ¬ (speed.toNat : Int) < 0 := by omega
  simp [exec, execWireDrive, execEncDrive, effSpeed, effHeading, revFlag, hpos]

theorem exec_wireRawMotors {lm rm : Byte} (hlm : modeByteOk lm = true) (ls : Byte) (hrm : modeByteOk rm = true)
    (rs : Byte) (s : State) :
    exec (.wireRawMotors lm ls rm rs) s = exec (.encRawMotors lm.toNat ls.toNat rm.toNat rs.toNat) s := by
  simp only [exec, execWireRawMotors, execEncRawMotors, emitRawMotors, coerceMode_of_modeByteOk hlm,
    coerceMode_of_modeByteOk hrm, lo8_toNat]

theorem exec_wireSetAllLEDs (red green blue : Byte) (s : State) :
    exec (.wireSetAllLEDs red green blue) s = exec (.encSetAllLeds red.toNat green.toNat blue.toNat) s := by
  simp only [exec, execWireSetAllLEDs, execEncSetAllLeds, lo8_toNat]

/-- A well-formed instruction and the encoder request behind it run alike. -/
theorem exec_encoderRequest {i : Instr} (hwf : i.wellFormed = true) (s : State) :
    exec i s = exec (encoderRequest i) s := by
  cases i
  case wireDrive speed heading reverse =>
    cases reverse with
    | false => exact exec_wireDrive_forward speed heading s
    | true => exact exec_wireDrive_reverse speed (by simpa [Instr.wellFormed] using hwf) s
  case wireRawMotors lm ls rm rs =>
    obtain ⟨hlm, hrm⟩ := (Bool.and_eq_true _ _).mp hwf
    exact exec_wireRawMotors hlm ls hrm rs s
  case wireSetAllLEDs red green blue => exact exec_wireSetAllLEDs red green blue s
  all_goals rfl

/-- Settles O18, with `encoderRequest` as the request. -/
theorem wireRowsAreEncoderFrames : Obligations.WireRowsAreEncoderFrames := by
  intro i k hwf hkind
  have hencoder := encoderKind_encoderRequest hkind
  obtain ⟨op, slots, -, hdecode⟩ := exists_command_of_encoderKind hencoder
  exact ⟨op, slots, encoderRequest i, hdecode, hencoder, exec_encoderRequest hwf⟩

/-! ### DERIVE_MOTOR (rule R74) -/

theorem deriveMagnitude_eq_natAbs (v : Int) : deriveMagnitude v = ((min (max v (-255)) 255).natAbs : Int) :=
  (Int.natCast_natAbs _).symm

/-- Settles O10: both requests emit the RawMotors frame of the derived modes and magnitudes. -/
theorem deriveMotorIsItsExpansion : Obligations.DeriveMotorIsItsExpansion := by
  intro left right s
  rw [← deriveMagnitude_eq_natAbs, ← deriveMagnitude_eq_natAbs]
  rfl

end Sys2Proof.Machine

/-! Encoding (30_encoding.md), the requests: which raw requests decode, what they decode to, and that encoding it gives
the request back. -/

namespace Sys2Proof.Machine

/-! ### Command requests (rules R60 to R63) -/

theorem byteOf?_eq_some {v : Int} {b : Byte} (h : byteOf? v = some b) : v = b.toNat := by
  unfold byteOf? at h
  split at h
  next hrange =>
    cases h
    simp only [BitVec.toNat_ofInt]
    omega
  next => cases h

theorem bytesOf?_eq_some_iff {vs : List Int} {bs : Bytes} :
    bytesOf? vs = some bs ↔ vs = bs.map fun b => (b.toNat : Int) := by
  refine ⟨fun h => ?_, fun h => h ▸ bytesOf?_map_toNat bs⟩
  induction vs generalizing bs with
  | nil => cases h; rfl
  | cons v vs ih =>
    unfold bytesOf? at h
    split at h
    next b bs' hb hbs =>
      cases h
      rw [List.map_cons, ← byteOf?_eq_some hb, ← ih hbs]
    next => cases h

/-- Integers that are all bytes are a byte sequence. -/
theorem exists_bytesOf?_of_bytes {vs : List Int} (h : ∀ v ∈ vs, 0 ≤ v ∧ v ≤ 255) :
    ∃ bs, bytesOf? vs = some bs := by
  induction vs with
  | nil => exact ⟨[], rfl⟩
  | cons v vs ih =>
    obtain ⟨hv, hvs⟩ := List.forall_mem_cons.mp h
    obtain ⟨bs, hbs⟩ := ih hvs
    exact ⟨BitVec.ofInt 8 v :: bs, by rw [bytesOf?, hbs, byteOf?, if_pos hv]⟩

/-- `d` is what a defined OP makes of its slots: slots of the OP's format are an instruction whose encoding they are,
and any others are refused by name. -/
def CommandRead (op : BitVec 4) (slots : List Slot) (d : Except DecodeError Instr) : Prop :=
  (∃ i, d = .ok i ∧ slotsMatch op slots ∧ encode i = .command op slots) ∨
    (d = .error (.malformedSlots op) ∧ ¬ slotsMatch op slots)

theorem CommandRead.ok {op : BitVec 4} {slots : List Slot} {i : Instr} (hmatch : slotsMatch op slots)
    (hencode : encode i = .command op slots) : CommandRead op slots (.ok i) := .inl ⟨i, rfl, hmatch, hencode⟩

theorem CommandRead.error {op : BitVec 4} {slots : List Slot} (hno : ¬ slotsMatch op slots) :
    CommandRead op slots (.error (.malformedSlots op)) := .inr ⟨rfl, hno⟩

theorem formatN_read {op : BitVec 4} {slots : List Slot} {i : Instr} (hmatch : slotsMatch op slots ↔ slots = [])
    (hencode : encode i = .command op []) : CommandRead op slots (formatN op slots i) := by
  unfold formatN
  split
  next => exact .ok (hmatch.mpr rfl) hencode
  next hno => exact .error fun h => hno (hmatch.mp h)

theorem formatS_read {op : BitVec 4} {slots : List Slot} {f : Bytes → Instr}
    (hmatch : slotsMatch op slots ↔ ∃ vs : List Int, slots = [.seq vs] ∧ ∀ v ∈ vs, 0 ≤ v ∧ v ≤ 255)
    (hencode : ∀ bs, encode (f bs) = .command op [seqSlot bs]) : CommandRead op slots (formatS op slots f) := by
  unfold formatS
  split
  next vs =>
    split
    next bs hbs =>
      obtain rfl := bytesOf?_eq_some_iff.mp hbs
      refine .ok (hmatch.mpr ⟨_, rfl, fun v hv => ?_⟩) (hencode bs)
      obtain ⟨b, -, rfl⟩ := List.mem_map.mp hv
      have := b.isLt
      omega
    next hnone =>
      refine .error fun h => ?_
      obtain ⟨_, ⟨⟩, hbytes⟩ := hmatch.mp h
      obtain ⟨bs, hbs⟩ := exists_bytesOf?_of_bytes hbytes
      exact nomatch hnone.symm.trans hbs
  next hno =>
    refine .error fun h => ?_
    obtain ⟨vs, rfl, -⟩ := hmatch.mp h
    exact hno vs rfl

theorem formatI2_read {op : BitVec 4} {slots : List Slot} {f : Int → Int → Instr}
    (hmatch : slotsMatch op slots ↔ ∃ a b : Int, slots = [.int a, .int b])
    (hencode : ∀ a b, encode (f a b) = .command op [.int a, .int b]) :
    CommandRead op slots (formatI2 op slots f) := by
  unfold formatI2
  split
  next a b => exact .ok (hmatch.mpr ⟨a, b, rfl⟩) (hencode a b)
  next hno => exact .error fun h => let ⟨a, b, hs⟩ := hmatch.mp h; hno a b hs

theorem formatI3_read {op : BitVec 4} {slots : List Slot} {f : Int → Int → Int → Instr}
    (hmatch : slotsMatch op slots ↔ ∃ a b c : Int, slots = [.int a, .int b, .int c])
    (hencode : ∀ a b c, encode (f a b c) = .command op [.int a, .int b, .int c]) :
    CommandRead op slots (formatI3 op slots f) := by
  unfold formatI3
  split
  next a b c => exact .ok (hmatch.mpr ⟨a, b, c, rfl⟩) (hencode a b c)
  next hno => exact .error fun h => let ⟨a, b, c, hs⟩ := hmatch.mp h; hno a b c hs

theorem formatI4_read {op : BitVec 4} {slots : List Slot} {f : Int → Int → Int → Int → Instr}
    (hmatch : slotsMatch op slots ↔ ∃ a b c d : Int, slots = [.int a, .int b, .int c, .int d])
    (hencode : ∀ a b c d, encode (f a b c d) = .command op [.int a, .int b, .int c, .int d]) :
    CommandRead op slots (formatI4 op slots f) := by
  unfold formatI4
  split
  next a b c d => exact .ok (hmatch.mpr ⟨a, b, c, d, rfl⟩) (hencode a b c d)
  next hno => exact .error fun h => let ⟨a, b, c, d, hs⟩ := hmatch.mp h; hno a b c d hs

theorem formatW4_read {op : BitVec 4} {slots : List Slot} {f : Word32 → Word32 → Word32 → Word32 → Instr}
    (hmatch : slotsMatch op slots ↔ ∃ a b c d : Word32, slots = [.word a, .word b, .word c, .word d])
    (hencode : ∀ a b c d, encode (f a b c d) = .command op [.word a, .word b, .word c, .word d]) :
    CommandRead op slots (formatW4 op slots f) := by
  unfold formatW4
  split
  next a b c d => exact .ok (hmatch.mpr ⟨a, b, c, d, rfl⟩) (hencode a b c d)
  next hno => exact .error fun h => let ⟨a, b, c, d, hs⟩ := hmatch.mp h; hno a b c d hs

/-- The opcode map gives each defined OP the format of its row; the cases are the rows in order (rules R61 and R62). -/
theorem decodeCommand_read {op : BitVec 4} (slots : List Slot) (hop : op.toNat < 0xD) :
    CommandRead op slots (decodeCommand op slots) := by
  obtain ⟨n, hn, rfl⟩ : ∃ n, n < 0xD ∧ op = BitVec.ofNat 4 n := ⟨op.toNat, hop, by simp⟩
  interval_cases n
  · exact formatS_read Iff.rfl fun _ => rfl
  · exact formatI2_read Iff.rfl fun _ _ => rfl
  · exact formatI4_read Iff.rfl fun _ _ _ _ => rfl
  · exact formatI2_read Iff.rfl fun _ _ => rfl
  · exact formatW4_read Iff.rfl fun _ _ _ _ => rfl
  · exact formatN_read Iff.rfl rfl
  · exact formatN_read Iff.rfl rfl
  · exact formatN_read Iff.rfl rfl
  · exact formatI3_read Iff.rfl fun _ _ _ => rfl
  · exact formatN_read Iff.rfl rfl
  · exact formatN_read Iff.rfl rfl
  · exact formatS_read Iff.rfl fun _ => rfl
  · exact formatS_read Iff.rfl fun _ => rfl

/-- A reserved OP decodes whatever its slots (60_exceptions.md rule R195). -/
theorem decodeCommand_reserved {op : BitVec 4} (slots : List Slot) (hop : 0xD ≤ op.toNat) :
    ∃ i, decodeCommand op slots = .ok i ∧ i.wellFormed = true := by
  have hlt := op.isLt
  obtain h | h | h : op.toNat = 0xD ∨ op.toNat = 0xE ∨ op.toNat = 0xF := by omega
  · exact ⟨.reservedD, by simp [decodeCommand, h], rfl⟩
  · exact ⟨.reservedE, by simp [decodeCommand, h], rfl⟩
  · exact ⟨.reservedF, by simp [decodeCommand, h], rfl⟩

/-- A raw request that is no instruction is refused by the step that takes it (rule R63). -/
theorem step_of_decode_error {s : State} {r : Request} {rest : List HostEvent} {why : DecodeError}
    (hc : conforming s.cfg = true) (hi : s.inbox = .request r :: rest) (hd : decode r = .error why) :
    step s = .refused (.notARequest why) := by
  simp [step, fetch, hc, hi, hd]

/-- Settles O41: a defined OP reads exactly the slots of its format, and a reserved OP any slots. -/
theorem malformedRequestsAreRefused : Obligations.MalformedRequestsAreRefused := by
  refine ⟨fun op slots => ?_, fun op slots s rest hop hno hc hi => step_of_decode_error hc hi ?_⟩
  · rcases Nat.lt_or_ge op.toNat 0xD with hop | hop
    · have hdefined : ¬ 0xD ≤ op.toNat := Nat.not_le.mpr hop
      rcases decodeCommand_read slots hop with ⟨i, hdecode, hmatch, -⟩ | ⟨hdecode, hno⟩
      · exact ⟨fun _ => .inr hmatch, fun _ => ⟨i, hdecode⟩⟩
      · simp [decode, hdecode, hno, hdefined]
    · obtain ⟨i, hdecode, -⟩ := decodeCommand_reserved slots hop
      exact ⟨fun _ => .inl hop, fun _ => ⟨i, hdecode⟩⟩
  · rcases decodeCommand_read slots hop with ⟨_, _, hmatch, -⟩ | ⟨hdecode, -⟩
    · exact absurd hmatch hno
    · exact hdecode

theorem encode_of_decodeCommand {op : BitVec 4} {slots : List Slot} {i : Instr} (hop : op.toNat < 0xD)
    (h : decodeCommand op slots = .ok i) : encode i = .command op slots := by
  rcases decodeCommand_read slots hop with ⟨j, hdecode, -, hencode⟩ | ⟨hdecode, -⟩
  · cases hdecode.symm.trans h
    exact hencode
  · cases hdecode.symm.trans h

/-- Settles O43: what a defined OP decodes to is an instruction whose encoding is the request. -/
theorem encodeOfDecodedCommand : Obligations.EncodeOfDecodedCommand := fun _ _ _ => encode_of_decodeCommand

/-! ### Outbound wire requests (rules R64 to R67; log 2) -/

theorem wireHeader_eq_headerWord (k : Kind) : wireHeader k = headerWord k := by cases k <;> rfl

theorem kindOf?_eq_some_iff {header : BitVec 32} {k : Kind} : kindOf? header = some k ↔ header = headerWord k := by
  rw [← wireHeader_eq_headerWord]
  refine ⟨fun h => ?_, fun h => h ▸ kindOf?_wireHeader k⟩
  have hfound := List.find?_some h
  exact (beq_iff_eq.mp hfound).symm

theorem headerWord_injective : Function.Injective headerWord := fun _ _ h =>
  Option.some.inj ((kindOf?_eq_some_iff.mpr rfl).symm.trans (kindOf?_eq_some_iff.mpr h))

theorem eq_be32_of_readWord {p rest : Bytes} {w : Word32} (h : readWord p = some (w, rest)) : p = be32 w ++ rest := by
  unfold readWord at h
  split at h
  next => cases h; rw [be32_append]; rfl
  next => cases h

/-- Four bytes or more begin with a word. -/
theorem exists_be32_append {p : Bytes} {n : Nat} (h : p.length = n + 4) :
    ∃ w rest, p = be32 w ++ rest ∧ rest.length = n := by
  match p, h with
  | b0 :: b1 :: b2 :: b3 :: rest, h =>
    exact ⟨b0 ++ b1 ++ b2 ++ b3, rest, by rw [be32_append]; rfl, by simpa using h⟩

theorem encode_of_readDrive {p : Bytes} {i : Instr} (h : readDrive p = some i) :
    encode i = .wireOut (wireHeader .drive) p := by
  unfold readDrive at h
  split at h
  next s hi lo f =>
    split at h
    next hf => cases h; rw [encode, drivePayload, be16_append, ← hf]; rfl
    next =>
      split at h
      next hf => cases h; rw [encode, drivePayload, be16_append, ← hf]; rfl
      next => cases h
  next => cases h

theorem encode_of_readRawMotors {p : Bytes} {i : Instr} (h : readRawMotors p = some i) :
    encode i = .wireOut (wireHeader .rawMotors) p := by
  unfold readRawMotors at h
  split at h
  next => cases h; rfl
  next => cases h

theorem encode_of_readDtp {p : Bytes} {i : Instr} (h : readDtp p = some i) :
    encode i = .wireOut (wireHeader .driveToPositionSI) p := by
  simp only [readDtp, Option.bind_eq_bind, Option.bind_eq_some_iff] at h
  obtain ⟨⟨yaw, p1⟩, hyaw, ⟨x, p2⟩, hx, ⟨y, p3⟩, hy, ⟨speed, p4⟩, hspeed, hlast⟩ := h
  split at hlast
  next hzero =>
    cases hlast
    obtain rfl : p4 = [0x00#8] := hzero
    obtain rfl : p3 = be32 speed ++ _ := eq_be32_of_readWord hspeed
    obtain rfl : p2 = be32 y ++ _ := eq_be32_of_readWord hy
    obtain rfl : p1 = be32 x ++ _ := eq_be32_of_readWord hx
    obtain rfl := eq_be32_of_readWord hyaw
    simp only [encode, dtpPayload, List.append_assoc]
  next => cases hlast

theorem eq_of_readEmpty {p : Bytes} {i j : Instr} (h : readEmpty i p = some j) : p = [] ∧ i = j := by
  unfold readEmpty at h
  split at h
  next => cases h; exact ⟨rfl, rfl⟩
  next => cases h

theorem encode_of_readLeds {p : Bytes} {i : Instr} (h : readLeds p = some i) :
    encode i = .wireOut (wireHeader .setAllLEDs) p := by
  simp only [readLeds] at h
  split at h
  next hp => cases h; rw [encode, ← hp]
  next => cases h

/-- No payload byte is dropped or reordered by the reader of a kind (rule R67). -/
theorem encode_of_readPayload {k : Kind} {p : Bytes} {i : Instr} (h : readPayload k p = some i) :
    encode i = .wireOut (wireHeader k) p := by
  cases k
  case drive => exact encode_of_readDrive h
  case rawMotors => exact encode_of_readRawMotors h
  case driveToPositionSI => exact encode_of_readDtp h
  case setAllLEDs => exact encode_of_readLeds h
  case resetYaw | configureStreaming | startStreaming | wake | sleep =>
    all_goals
      obtain ⟨rfl, rfl⟩ := eq_of_readEmpty h
      rfl

/-- A header of no kind is refused by name (rule R66). -/
theorem decodeWireOut_unknown {header : BitVec 32} (payload : Bytes) (h : ∀ k, header ≠ headerWord k) :
    decodeWireOut header payload = .error (.unknownWireHeader header) := by
  have hnone : kindOf? header = none :=
    Option.eq_none_iff_forall_ne_some.mpr fun k hk => h k (kindOf?_eq_some_iff.mp hk)
  simp [decodeWireOut, hnone]

/-- Under the header of a kind, a payload is the encoding of a well-formed instruction or is refused by the kind. -/
theorem decodeWireOut_cases (k : Kind) (payload : Bytes) :
    (∃ i, decodeWireOut (headerWord k) payload = .ok i ∧ i.wellFormed = true ∧
        encode i = .wireOut (headerWord k) payload) ∨
      decodeWireOut (headerWord k) payload = .error (.badWirePayload k) := by
  have hkind : kindOf? (headerWord k) = some k := kindOf?_eq_some_iff.mpr rfl
  cases hread : readPayload k payload with
  | none => exact .inr (by simp [decodeWireOut, hkind, hread])
  | some i =>
    cases hwf : i.wellFormed with
    | false => exact .inr (by simp [decodeWireOut, hkind, hread, hwf])
    | true =>
      exact .inl ⟨i, by simp [decodeWireOut, hkind, hread, hwf], hwf,
        wireHeader_eq_headerWord k ▸ encode_of_readPayload hread⟩

/-- What an outbound wire request decodes to is well formed and encodes to the request. -/
theorem decodeWireOut_ok {header : BitVec 32} {payload : Bytes} {i : Instr} (h : decodeWireOut header payload = .ok i) :
    i.wellFormed = true ∧ encode i = .wireOut header payload := by
  by_cases hheader : ∃ k, header = headerWord k
  · obtain ⟨k, rfl⟩ := hheader
    rcases decodeWireOut_cases k payload with ⟨j, hj, hwf, hencode⟩ | herror
    · cases hj.symm.trans h
      exact ⟨hwf, hencode⟩
    · cases herror.symm.trans h
  · cases (decodeWireOut_unknown payload (not_exists.mp hheader)).symm.trans h

/-- Settles O44, by what an outbound wire request decodes to. -/
theorem encodeOfDecodedWireRow : Obligations.EncodeOfDecodedWireRow := fun _ _ _ h => (decodeWireOut_ok h).2

/-! ### The payload layouts (rule R67) -/

/-- Every zone of a SetAllLEDs payload holds the triple. -/
theorem ledPayload_getElem? (r g b : Byte) {z : Nat} (hz : z < 10) :
    (ledPayload r g b)[3 * z]? = some r ∧ (ledPayload r g b)[3 * z + 1]? = some g ∧
      (ledPayload r g b)[3 * z + 2]? = some b := by
  interval_cases z <;> exact ⟨rfl, rfl, rfl⟩

/-- Thirty bytes whose zones all hold the same triple are the payload of that triple. -/
theorem eq_ledPayload {p : Bytes} (hlength : p.length = 30)
    (hzones : ∀ z, z < 10 → p[3 * z]? = p[0]? ∧ p[3 * z + 1]? = p[1]? ∧ p[3 * z + 2]? = p[2]?) :
    p = ledPayload p[0] p[1] p[2] := by
  refine List.ext_getElem? fun j => ?_
  rcases Nat.lt_or_ge j 30 with hj | hj
  · have hz : j / 3 < 10 := by omega
    obtain ⟨hr, hg, hb⟩ := hzones (j / 3) hz
    obtain ⟨lr, lg, lb⟩ := ledPayload_getElem? p[0] p[1] p[2] hz
    obtain h | h | h : j = 3 * (j / 3) ∨ j = 3 * (j / 3) + 1 ∨ j = 3 * (j / 3) + 2 := by omega
    · rw [h, hr, lr, List.getElem?_eq_getElem]
    · rw [h, hg, lg, List.getElem?_eq_getElem]
    · rw [h, hb, lb, List.getElem?_eq_getElem]
  · rw [List.getElem?_eq_none (by omega), List.getElem?_eq_none hj]

/-- A well-formed Drive row carries a payload of the layout: its heading is its high byte and its low byte. -/
theorem rowPayload_drivePayload {speed : Byte} {heading : BitVec 16} {reverse : Bool}
    (hwf : (Instr.wireDrive speed heading reverse).wellFormed = true) :
    rowPayload .drive (drivePayload speed heading reverse) := by
  have hheading : (heading.extractLsb' 8 8).toNat * 256 + (heading.extractLsb' 0 8).toNat = heading.toNat := by
    rw [← toNat_append_byte]
    exact congrArg BitVec.toNat (append_be16 heading)
  cases reverse with
  | false => exact ⟨speed, _, _, .inl rfl⟩
  | true => exact ⟨speed, _, _, .inr ⟨rfl, hheading ▸ of_decide_eq_true hwf⟩⟩

/-- A well-formed instruction that encodes to an outbound wire request gives it a header and a payload of one kind. -/
theorem exists_rowPayload_of_encode {i : Instr} {header : BitVec 32} {p : Bytes} (hwf : i.wellFormed = true)
    (hencode : encode i = .wireOut header p) : ∃ k, header = headerWord k ∧ rowPayload k p := by
  cases i
  case wireDrive => cases hencode; exact ⟨.drive, wireHeader_eq_headerWord _, rowPayload_drivePayload hwf⟩
  case wireRawMotors lm ls rm rs =>
    cases hencode
    obtain ⟨hlm, hrm⟩ := (Bool.and_eq_true _ _).mp hwf
    exact ⟨.rawMotors, wireHeader_eq_headerWord _, lm, ls, rm, rs, rfl, of_decide_eq_true hlm,
      of_decide_eq_true hrm⟩
  case wireDriveToPositionSI => cases hencode; exact ⟨.driveToPositionSI, wireHeader_eq_headerWord _, rfl, rfl⟩
  case wireSetAllLEDs r g b =>
    cases hencode
    exact ⟨.setAllLEDs, wireHeader_eq_headerWord _, rfl, fun z hz => ledPayload_getElem? r g b hz⟩
  case wireResetYaw | wireConfigureStreaming | wireStartStreaming | wireWake | wireSleep =>
    all_goals cases hencode; exact ⟨_, wireHeader_eq_headerWord _, rfl⟩
  all_goals cases hencode

/-- A payload of a kind's layout decodes under the kind's header. -/
theorem decodeWireOut_of_rowPayload {k : Kind} {p : Bytes} (h : rowPayload k p) :
    ∃ i, decodeWireOut (headerWord k) p = .ok i := by
  rw [← wireHeader_eq_headerWord]
  cases k
  case drive =>
    obtain ⟨speed, high, low, rfl | ⟨rfl, hheading⟩⟩ := h
    · have hround := Laws.EncodeRoundTrip.wireDrive speed (high ++ low) false rfl
      rw [encode, drivePayload, be16_append] at hround
      exact ⟨_, hround⟩
    · have hround := Laws.EncodeRoundTrip.wireDrive speed (high ++ low) true (by
        simpa [Instr.wellFormed, toNat_append_byte] using hheading)
      rw [encode, drivePayload, be16_append] at hround
      exact ⟨_, hround⟩
  case rawMotors =>
    obtain ⟨lm, ls, rm, rs, rfl, hlm, hrm⟩ := h
    exact ⟨_, Laws.EncodeRoundTrip.wireRawMotors lm ls rm rs (by simp [Instr.wellFormed, modeByteOk, hlm, hrm])⟩
  case driveToPositionSI =>
    obtain ⟨hlength, hlast⟩ := h
    obtain ⟨yaw, p1, rfl, h1⟩ := exists_be32_append (n := 13) hlength
    obtain ⟨x, p2, rfl, h2⟩ := exists_be32_append (n := 9) h1
    obtain ⟨y, p3, rfl, h3⟩ := exists_be32_append (n := 5) h2
    obtain ⟨speed, p4, rfl, h4⟩ := exists_be32_append (n := 1) h3
    obtain ⟨b, rfl⟩ := List.length_eq_one_iff.mp h4
    obtain rfl : b = 0x00#8 := Option.some.inj hlast
    have hround := Laws.EncodeRoundTrip.wireDriveToPositionSI yaw x y speed rfl
    simp only [encode, dtpPayload, List.append_assoc] at hround
    exact ⟨_, hround⟩
  case setAllLEDs =>
    obtain ⟨hlength, hzones⟩ := h
    rw [eq_ledPayload hlength hzones]
    exact ⟨_, Laws.EncodeRoundTrip.wireSetAllLEDs _ _ _ rfl⟩
  case resetYaw => cases h; exact ⟨_, Laws.EncodeRoundTrip.wireResetYaw rfl⟩
  case configureStreaming => cases h; exact ⟨_, Laws.EncodeRoundTrip.wireConfigureStreaming rfl⟩
  case startStreaming => cases h; exact ⟨_, Laws.EncodeRoundTrip.wireStartStreaming rfl⟩
  case wake => cases h; exact ⟨_, Laws.EncodeRoundTrip.wireWake rfl⟩
  case sleep => cases h; exact ⟨_, Laws.EncodeRoundTrip.wireSleep rfl⟩

/-- An outbound wire request decodes exactly when a kind's header stands over a payload of the kind's layout. -/
theorem exists_decodeWireOut_iff (header : BitVec 32) (p : Bytes) :
    (∃ i, decodeWireOut header p = .ok i) ↔ ∃ k, header = headerWord k ∧ rowPayload k p := by
  constructor
  · rintro ⟨i, h⟩
    obtain ⟨hwf, hencode⟩ := decodeWireOut_ok h
    exact exists_rowPayload_of_encode hwf hencode
  · rintro ⟨k, rfl, hlayout⟩
    exact decodeWireOut_of_rowPayload hlayout

/-- Settles O60: the header picks the kind, the kind's layout says which payloads decode, and the rest are refused under
the name of what is wrong. -/
theorem wireRequestsDecodeByTheirLayout : Obligations.WireRequestsDecodeByTheirLayout := by
  refine ⟨exists_decodeWireOut_iff, fun header payload s rest hc hi =>
    ⟨fun h => step_of_decode_error hc hi (decodeWireOut_unknown payload h), ?_⟩⟩
  rintro k rfl hno
  refine step_of_decode_error hc hi ?_
  rcases decodeWireOut_cases k payload with ⟨i, hdecode, -⟩ | herror
  · obtain ⟨j, hj, hlayout⟩ := (exists_decodeWireOut_iff _ _).mp ⟨i, hdecode⟩
    obtain rfl := headerWord_injective hj
    exact absurd hlayout hno
  · exact herror

/-! ### Inbound frames (rules R70 and R71) -/

/-- Inbound bytes are the locator row by its match pattern, and the SCAN of themselves otherwise. -/
theorem decodeWireIn_cases (frame : Bytes) :
    (∃ b1 b2 b3 rest, frame = locatorFrame b1 b2 b3 rest ∧
        decodeWireIn frame = .wireLocatorReport b1 b2 b3 rest) ∨
      (¬ (frame[0]? = some 0x8D#8 ∧ frame[4]? = some 0x3D#8) ∧ decodeWireIn frame = .scan frame) := by
  unfold decodeWireIn
  split
  next s b1 b2 b3 c rest =>
    split
    next hmatch =>
      obtain ⟨rfl, rfl⟩ := hmatch
      exact .inl ⟨b1, b2, b3, rest, rfl, rfl⟩
    next hno => exact .inr ⟨fun ⟨hs, hc⟩ => hno ⟨Option.some.inj hs, Option.some.inj hc⟩, rfl⟩
  next hshort =>
    refine .inr ⟨fun ⟨_, hc⟩ => ?_, rfl⟩
    match frame, hc with
    | s :: b1 :: b2 :: b3 :: c :: rest, _ => exact hshort s b1 b2 b3 c rest rfl

/-- Settles O46: the pattern decides the row, and the row's meaning is the SCAN of the bytes it was read from. -/
theorem inboundFrameIsScanned : Obligations.InboundFrameIsScanned := by
  intro frame
  rcases decodeWireIn_cases frame with ⟨b1, b2, b3, rest, rfl, hdecode⟩ | ⟨hno, hdecode⟩
  · exact ⟨⟨fun _ => ⟨rfl, rfl⟩, fun _ => ⟨b1, b2, b3, rest, congrArg Except.ok hdecode⟩⟩, _, rfl,
      fun s => by rw [hdecode]; rfl⟩
  · refine ⟨⟨fun ⟨b1, b2, b3, rest, h⟩ => ?_, fun h => absurd h hno⟩, _, rfl, fun s => by rw [hdecode]⟩
    cases hdecode.symm.trans (Except.ok.inj h)

/-! ### Every decoded instruction -/

/-- What encodes to a command request is well formed, for command requests are typed (rule R63). -/
theorem wellFormed_of_encode_command {i : Instr} {op : BitVec 4} {slots : List Slot}
    (h : encode i = .command op slots) : i.wellFormed = true := by
  cases i
  case wireDrive | wireRawMotors => all_goals cases h
  all_goals rfl

/-- Settles O45, by the three forms of a raw request. -/
theorem decodedInstructionsAreWellFormed : Obligations.DecodedInstructionsAreWellFormed := by
  intro r i h
  cases r with
  | command op slots =>
    rcases Nat.lt_or_ge op.toNat 0xD with hop | hop
    · exact wellFormed_of_encode_command (encode_of_decodeCommand hop h)
    · obtain ⟨j, hj, hwf⟩ := decodeCommand_reserved slots hop
      cases hj.symm.trans h
      exact hwf
  | wireOut header payload =>
    exact (decodeWireOut_ok h).1
  | wireIn frame =>
    cases h
    rcases decodeWireIn_cases frame with ⟨b1, b2, b3, rest, -, hdecode⟩ | ⟨-, hdecode⟩ <;> rw [hdecode] <;> rfl

/-- Settles O48: the decoder, run on each of the eight words. -/
theorem tableWordsDecode : Obligations.TableWordsDecode := ⟨rfl, rfl, rfl, rfl, rfl, rfl, rfl, rfl⟩

end Sys2Proof.Machine

/-! The checksum (40_checksum.md): its value as a number, the algebra that follows from it, and the frames that carry
it. -/

namespace Sys2Proof.Machine

/-! ### CSUM (rule R90) -/

theorem exec_csum (b : Bytes) (s : State) : exec (.csum b) s = .next { s with out := okCsum (cs b) } :=
  congrArg Host.Outcome.next (answerCsum_eq (cs b) s)

/-- Settles O1: CSUM answers `cs`, whose second form is `checksumByte`. -/
theorem csumAnswersComplementOfByteSum : Obligations.CsumAnswersComplementOfByteSum := by
  intro b s
  rw [exec_csum, cs_eq_checksumByte]

/-! ### The byte sum (00_scope.md rule R13) -/

@[simp] theorem byteSum_nil : byteSum [] = 0 := rfl

@[simp] theorem byteSum_cons (x : Byte) (b : Bytes) : byteSum (x :: b) = x.toNat + byteSum b := by simp [byteSum]

@[simp] theorem byteSum_append (a b : Bytes) : byteSum (a ++ b) = byteSum a + byteSum b := by simp [byteSum]

theorem byteSum_perm {a b : Bytes} (h : a.Perm b) : byteSum a = byteSum b := (h.map BitVec.toNat).sum_eq

/-! ### The checksum as a number (rules R91 and R92) -/

theorem toNat_cs (b : Bytes) : (cs b).toNat = 255 - byteSum b % 256 := by
  rw [cs_eq_checksumByte, checksumByte, BitVec.toNat_ofNat]
  omega

theorem cs_eq_not (b : Bytes) : cs b = ~~~(BitVec.ofNat 8 (byteSum b)) := by
  apply BitVec.eq_of_toNat_eq
  rw [toNat_cs, BitVec.toNat_not, BitVec.toNat_ofNat]

/-- Settles O2: the spellings in integers are arithmetic from `toNat_cs`. -/
theorem checksumSpellingsAgree : Obligations.ChecksumSpellingsAgree := by
  intro b
  have h := toNat_cs b
  exact ⟨by omega, by omega, by omega, h, cs_eq_not b⟩

/-! ### The algebra of the checksum (rule R95) -/

/-- The checksum knows the sum mod 256, and nothing else of the sequence. -/
theorem cs_eq_cs_iff (a b : Bytes) : cs a = cs b ↔ byteSum a % 256 = byteSum b % 256 := by
  rw [← BitVec.toNat_inj, toNat_cs, toNat_cs]
  omega

theorem toNat_cs_singleton (x : Byte) : (cs [x]).toNat = 255 - x.toNat := by
  rw [toNat_cs, byteSum_cons, byteSum_nil, Nat.add_zero, Nat.mod_eq_of_lt x.isLt]

theorem byteSum_add_toNat_cs (b : Bytes) : (byteSum b + (cs b).toNat) % 256 = 255 := by
  rw [toNat_cs]
  omega

/-- Two different bytes differ by less than 256, so the change shows in the sum mod 256. -/
theorem cs_ne_of_byte_changed (a b : Bytes) {x y : Byte} (h : x ≠ y) : cs (a ++ x :: b) ≠ cs (a ++ y :: b) := by
  have hx := x.isLt
  have hy := y.isLt
  rw [Ne, ← BitVec.toNat_inj] at h
  rw [Ne, cs_eq_cs_iff]
  simp only [byteSum_append, byteSum_cons]
  omega

/-- Two changed bytes whose sum is unchanged mod 256 do not show. -/
theorem cs_eq_of_changes_cancel (a b c : Bytes) {x y x' y' : Byte} (h : x' + y' = x + y) :
    cs (a ++ x' :: (b ++ y' :: c)) = cs (a ++ x :: (b ++ y :: c)) := by
  rw [← BitVec.toNat_inj, BitVec.toNat_add, BitVec.toNat_add] at h
  rw [cs_eq_cs_iff]
  simp only [byteSum_append, byteSum_cons]
  omega

theorem cs_singleton_not (v : Byte) : cs [~~~v] = v := by
  have hv := v.isLt
  apply BitVec.eq_of_toNat_eq
  rw [toNat_cs_singleton, BitVec.toNat_not]
  omega

/-- Settles O3, each property by what it does to the sum mod 256. -/
theorem checksumAlgebra : Obligations.ChecksumAlgebra :=
  ⟨fun a b => (cs_eq_cs_iff a b).mpr,
    fun a b h => (cs_eq_cs_iff a b).mpr (by rw [byteSum_perm h]),
    fun a b => (cs_eq_cs_iff _ _).mpr (by simp),
    rfl, toNat_cs_singleton, byteSum_add_toNat_cs,
    fun a b _ _ => cs_ne_of_byte_changed a b,
    fun a b c _ _ _ _ => cs_eq_of_changes_cancel a b c,
    fun v => ⟨[~~~v], cs_singleton_not v⟩⟩

/-! ### A sealed frame, read back (rules R96 and R112) -/

theorem drop_one_sealedFrame (body : Bytes) : (sealedFrame body).drop 1 = body ++ [cs body, 0xD8#8] := by
  rw [sealedFrame, cs_eq_checksumByte, List.drop_one, List.tail_cons]

/-- Past START, offset `j` of a frame is offset `j` of body, checksum and END. -/
theorem sealedFrame_getElem?_succ (body : Bytes) (j : Nat) :
    (sealedFrame body)[j + 1]? = (body ++ [cs body, 0xD8#8])[j]? := by
  rw [← drop_one_sealedFrame, List.getElem?_drop, Nat.add_comm]

theorem sealedFrame_endMarker (body : Bytes) : (sealedFrame body)[body.length + 2]? = some 0xD8#8 := by
  rw [sealedFrame_getElem?_succ]
  simp

theorem sealedFrame_checksum (body : Bytes) : (sealedFrame body)[body.length + 1]? = some (cs body) := by
  rw [sealedFrame_getElem?_succ]
  simp

theorem sealedFrame_body (body : Bytes) : ((sealedFrame body).drop 1).take body.length = body := by
  rw [drop_one_sealedFrame, List.take_left]

theorem sealedFrame_bodyAndChecksum (body : Bytes) :
    ((sealedFrame body).drop 1).take (body.length + 1) = body ++ [cs body] := by
  rw [drop_one_sealedFrame, List.take_length_add_append]
  rfl

/-- Body and checksum together sum to 0xFF mod 256 (rule R96). -/
theorem byteSum_append_cs (body : Bytes) : byteSum (body ++ [cs body]) % 256 = 255 := by
  simpa using byteSum_add_toNat_cs body

theorem sealedFrame_header (c : Config) (k : Kind) (payload : Bytes) :
    ((sealedFrame (headerBytes c k ++ payload)).drop 1).take 4 = headerBytes c k := by
  rw [drop_one_sealedFrame, List.append_assoc]
  exact List.take_left' (length_headerBytes c k)

/-! ### The frame of an encoder request (rule R112) -/

theorem scannedBytes_of_encoderKind {i : Instr} {k : Kind} (h : encoderKind i = some k) : scannedBytes i = none := by
  cases i
  case scan | wireLocatorReport => all_goals cases h
  all_goals rfl

/-- The frame an encoder request emits in one state, it emits in every state of the same configuration. -/
theorem exec_okFrame_congr {i : Instr} {k : Kind} {s s' : State} {f : Bytes} (hkind : encoderKind i = some k)
    (hready : ready s.cfg i = true) (hexec : exec i s = .next { s with out := okFrame f }) (hcfg : s'.cfg = s.cfg) :
    exec i s' = .next { s' with out := okFrame f } := by
  obtain ⟨payload, -, hexec'⟩ := exec_of_encoderKind (s := s') hkind (by rwa [hcfg])
  have hframe : okFrame (sealedFrame (headerBytes s'.cfg k ++ payload)) = okFrame f :=
    exec_out_congr (scannedBytes_of_encoderKind hkind) hcfg (exec_eq_sealedFrame hexec') hexec
  rw [exec_eq_sealedFrame hexec', hframe]

/-- Settles O5: the request seals its kind's header and a payload, and a sealed frame reads back as it was put
together. -/
theorem encodedFrameRecomputesItsChecksum : Obligations.EncodedFrameRecomputesItsChecksum := by
  intro i k s hkind hready
  obtain ⟨payload, hlength, hframe, hexec⟩ := encodersEmitTheWireLayout i k s hkind hready
  refine ⟨_, hexec, rfl, ?_, hframe, sealedFrame_header _ _ _, ?_, ?_,
    fun _ => exec_okFrame_congr hkind hready hexec⟩
  all_goals rw [length_sealedFrame]
  · exact sealedFrame_endMarker _
  · exact (sealedFrame_checksum _).trans (by rw [Nat.add_sub_cancel, sealedFrame_body])
  · exact (congrArg (byteSum · % 256) (sealedFrame_bodyAndChecksum _)).trans (byteSum_append_cs _)

end Sys2Proof.Machine

/-! The frame encoder (41_frame_encoder.md): the fields each request puts into its frame, and what the scanner makes of
an emitted frame (rule R224). -/

namespace Sys2Proof.Machine

/-! ### Integers in fields (00_scope.md rules R13 and R14) -/

/-- The low 8 bits are the floored remainder mod 256. -/
theorem lo8_eq_ofInt_emod (v : Int) : lo8 v = BitVec.ofInt 8 (v % 256) := by
  apply BitVec.eq_of_toNat_eq
  simp only [lo8, BitVec.toNat_ofInt]
  omega

/-- The two bytes of a heading are those of the heading mod 65536. -/
theorem be16_headingField (v : Int) :
    be16 (headingField v) = [BitVec.ofInt 8 (v % 65536 / 256), BitVec.ofInt 8 (v % 65536 % 256)] := by
  rw [be16_eq_ofNat, headingField, List.cons.injEq, List.cons.injEq]
  refine ⟨BitVec.eq_of_toNat_eq ?_, BitVec.eq_of_toNat_eq ?_, rfl⟩
  all_goals
    simp only [BitVec.toNat_ofInt, BitVec.toNat_ofNat]
    omega

/-! ### ENC_DRIVE (rules R101 and R102) -/

theorem effSpeed_eq_abs (speed : Int) : effSpeed speed = |speed| := by
  unfold effSpeed
  split
  · next h => exact (abs_of_neg h).symm
  · next h => exact (abs_of_nonneg (Int.not_lt.mp h)).symm

theorem reverseByte_revFlag (speed : Int) : reverseByte (revFlag speed) = if speed < 0 then 0x01#8 else 0x00#8 := by
  simp [reverseByte, revFlag]

/-- Settles O6: the frame of the drive payload, whose fields are spelled out as numbers. -/
theorem encDriveSendsTransformedSpeedAndHeading : Obligations.EncDriveSendsTransformedSpeedAndHeading := by
  intro speed heading s
  rw [exec_eq_sealedFrame (k := .drive) rfl, drivePayload, effSpeed_eq_abs, be16_headingField, reverseByte_revFlag]
  rfl

/-- The bytes that a backward drive and the forward drive at the rotated heading share: header, speed and heading. -/
def driveFront (c : Config) (speed heading : Int) : Bytes :=
  headerBytes c .drive ++ lo8 speed :: be16 (headingField ((heading + 180) % 360))

theorem exec_encDrive_of_neg {speed : Int} (h : speed < 0) (heading : Int) (s : State) :
    exec (.encDrive speed heading) s =
      .next { s with out := okFrame (sealedFrame (driveFront s.cfg (-speed) heading ++ [0x01#8])) } := by
  rw [exec_eq_sealedFrame (k := .drive) rfl, effSpeed, if_pos h, effHeading, if_pos h, revFlag, decide_eq_true h]
  rfl

theorem exec_encDrive_of_nonneg {speed : Int} (h : ¬ speed < 0) (heading : Int) (s : State) :
    exec (.encDrive speed ((heading + 180) % 360)) s =
      .next { s with out := okFrame (sealedFrame (driveFront s.cfg speed heading ++ [0x00#8])) } := by
  rw [exec_eq_sealedFrame (k := .drive) rfl, effSpeed, if_neg h, effHeading, if_neg h, revFlag, decide_eq_false h]
  rfl

/-- Settles O7, with `driveFront` as the bytes both frames share. -/
theorem reversedDriveDiffersInFlagOnly : Obligations.ReversedDriveDiffersInFlagOnly := by
  intro speed heading s hpos
  refine ⟨driveFront s.cfg speed heading, rfl, ?_, exec_encDrive_of_nonneg (Int.not_lt.mpr hpos.le) heading s⟩
  rw [exec_encDrive_of_neg (Int.neg_neg_of_pos hpos), Int.neg_neg]

/-! ### ENC_RAW_MOTORS and DERIVE_MOTOR (rules R103 and R104) -/

/-- A mode is tested as a whole integer and sent as one of three bytes. -/
theorem lo8_coerceMode (m : Int) :
    lo8 (coerceMode m) = if m = 1 then 0x01#8 else if m = 2 then 0x02#8 else 0x00#8 := by
  by_cases h1 : m = 1
  · subst h1; rfl
  by_cases h2 : m = 2
  · subst h2; rfl
  have h0 : coerceMode m = 0 := by
    unfold coerceMode
    split <;> omega
  rw [h0, if_neg h1, if_neg h2]
  rfl

/-- Settles O8: the frame of the RawMotors payload, each field spelled out. -/
theorem encRawMotorsCoercesModesTruncatesSpeeds : Obligations.EncRawMotorsCoercesModesTruncatesSpeeds := by
  intro lm ls rm rs s
  rw [exec_eq_sealedFrame (k := .rawMotors) rfl, lo8_coerceMode, lo8_coerceMode, lo8_eq_ofInt_emod ls,
    lo8_eq_ofInt_emod rs]
  rfl

/-- A derived mode is FORWARD or BACKWARD, which the coercion keeps. -/
theorem lo8_coerceMode_deriveMode (v : Int) :
    lo8 (coerceMode (deriveMode v)) = if 0 ≤ v then 0x01#8 else 0x02#8 := by
  unfold deriveMode
  split <;> rfl

/-- Clamping to -255..255 clamps the magnitude to 255, which a byte holds. -/
theorem lo8_deriveMagnitude (v : Int) : lo8 (deriveMagnitude v) = BitVec.ofNat 8 (min v.natAbs 255) := by
  have hclamp : (min (max v (-255)) 255).natAbs = min v.natAbs 255 := by omega
  rw [deriveMagnitude_eq_natAbs, hclamp, lo8, BitVec.ofInt_natCast]

/-- Settles O9: the frame of the RawMotors payload of derived modes and magnitudes. -/
theorem deriveMotorClampsAndTakesSign : Obligations.DeriveMotorClampsAndTakesSign := by
  intro left right s
  rw [exec_eq_sealedFrame (k := .rawMotors) rfl, lo8_coerceMode_deriveMode, lo8_coerceMode_deriveMode,
    lo8_deriveMagnitude, lo8_deriveMagnitude]
  rfl

/-! ### ENC_DTP_SI and ENC_SET_ALL_LEDS (rules R105 and R108) -/

/-- Settles O11: the request does what the wire row of its kind does, whose frame is known. -/
theorem encDtpSiCopiesWordsBitExact : Obligations.EncDtpSiCopiesWordsBitExact := by
  obtain ⟨-, -, hrow, -⟩ := wireRowsFrameTheirPayloadFields
  exact hrow

/-- Settles O13: the payload is the triple of low bytes, once for every zone. -/
theorem encSetAllLedsRepeatsMaskedTriple : Obligations.EncSetAllLedsRepeatsMaskedTriple := by
  intro red green blue s
  refine ⟨ledPayload (lo8 red) (lo8 green) (lo8 blue), exec_eq_sealedFrame (k := .setAllLEDs) rfl, rfl, fun z hz => ?_⟩
  rw [← lo8_eq_ofInt_emod, ← lo8_eq_ofInt_emod, ← lo8_eq_ofInt_emod]
  exact ledPayload_getElem? _ _ _ hz

/-! ### The frames of fixed and of configured payload (rules R106, R107 and R109 to R111) -/

/-- A frame with its checksum written out as a sum over header, SEQ and payload. -/
theorem sealedFrame_header_payload (flags device command seq : Byte) (payload : Bytes) :
    sealedFrame ([flags, device, command, seq] ++ payload) =
      [0x8D#8, flags, device, command, seq] ++ payload ++
        [BitVec.ofNat 8 (0xFF - (flags.toNat + device.toNat + command.toNat + seq.toNat + byteSum payload) % 256),
          0xD8#8] := by
  have hsum : byteSum ([flags, device, command, seq] ++ payload) =
      flags.toNat + device.toNat + command.toNat + seq.toNat + byteSum payload := by
    simp only [byteSum_append, byteSum_cons, byteSum_nil]
    omega
  rw [sealedFrame, checksumByte, hsum]
  simp only [List.cons_append, List.nil_append]

/-- What a frame-emitting instruction answers, with the checksum written out as a sum. -/
theorem exec_eq_summedFrame {i : Instr} {s : State} {k : Kind} {payload : Bytes}
    (h : exec i s = .next (emitFrame k payload s)) :
    exec i s = .next { s with
      out := okFrame ([0x8D#8, flagsOf k, deviceIdOf k, commandIdOf k, seqOf s.cfg.seq k] ++ payload ++
        [BitVec.ofNat 8 (0xFF - ((flagsOf k).toNat + (deviceIdOf k).toNat + (commandIdOf k).toNat +
          (seqOf s.cfg.seq k).toNat + byteSum payload) % 256), 0xD8#8]) } := by
  rw [exec_eq_sealedFrame h, ← frameBody_eq_headerBytes, frameBody, sealedFrame_header_payload]

/-- Settles O14: three frames of no payload, whose checksum sums header and SEQ. -/
theorem zeroPayloadFrames : Obligations.ZeroPayloadFrames := fun _ =>
  ⟨exec_eq_summedFrame (k := .resetYaw) (payload := []) rfl, exec_eq_summedFrame (k := .wake) (payload := []) rfl,
    exec_eq_summedFrame (k := .sleep) (payload := []) rfl⟩

/-- Settles O15: each request emits the configured payload behind its header. -/
theorem streamRequestsEmitConfiguredPayload : Obligations.StreamRequestsEmitConfiguredPayload :=
  ⟨fun _ _ hp => exec_eq_summedFrame (k := .configureStreaming) (emitConfigured_of_payload hp),
    fun _ _ hp => exec_eq_summedFrame (k := .startStreaming) (emitConfigured_of_payload hp)⟩

/-! ### An emitted frame, scanned (rule R224) -/

/-- A frame-emitting instruction that answers has emitted a frame of its kind. -/
theorem exec_of_frameKind {i : Instr} {k : Kind} {s t : State} (hkind : frameKind i = some k)
    (hexec : exec i s = .next t) : ∃ payload, t = emitFrame k payload s := by
  cases exec_ran hexec with
  | frame payload hkind' _ =>
    cases hkind.symm.trans hkind'
    exact ⟨payload, rfl⟩
  | csum _ | deserLocator _ => cases hkind
  | reserved hop =>
    cases i
    case reservedD | reservedE | reservedF => all_goals cases hkind
    all_goals cases hop
  | scan hnone _ => cases hkind.symm.trans hnone

/-- One turn of the loop: past bytes with no START, from START to the first END is a frame, and the cursor goes past
it (42_frame_scanner.md rules R142 and R143). -/
theorem scanLoop_frame (turns : Nat) {b front noise mid rest : Bytes} (found : List Bytes)
    (hb : b = front ++ (noise ++ 0x8D#8 :: (mid ++ 0xD8#8 :: rest))) (hnoise : 0x8D#8 ∉ noise) (hmid : 0xD8#8 ∉ mid) :
    scanLoop (turns + 1) b front.length found =
      scanLoop turns b (front.length + noise.length + 1 + mid.length + 1) (found ++ [0x8D#8 :: (mid ++ [0xD8#8])]) := by
  have hstart : firstFrom startMarker front.length b = some (front.length + noise.length) :=
    hb ▸ firstFrom_append 0x8D#8 front noise _ hnoise
  have hend : firstFrom endMarker (front.length + noise.length + 1) b =
      some (front.length + noise.length + 1 + mid.length) := by
    simpa [hb, endMarker, Nat.add_assoc] using firstFrom_append 0xD8#8 (front ++ noise ++ [0x8D#8]) mid rest hmid
  have hslice : slice b (front.length + noise.length) (front.length + noise.length + 1 + mid.length) =
      0x8D#8 :: (mid ++ [0xD8#8]) := by
    have hdrop : b.drop (front.length + noise.length) = (0x8D#8 :: (mid ++ [0xD8#8])) ++ rest := by
      rw [hb, ← List.append_assoc, ← List.length_append, List.drop_left]
      simp
    rw [slice, hdrop]
    exact List.take_left' (by simp; omega)
  simp only [scanLoop, hstart, hend, hslice]

/-- At the end of the buffer the loop stops, however many turns are left. -/
theorem scanLoop_at_end (turns : Nat) (b : Bytes) (found : List Bytes) :
    scanLoop turns b b.length found = (found, []) := by
  cases turns with
  | zero => rfl
  | succ turns =>
    have hnone : firstFrom startMarker b.length b = none := by simp [firstFrom_eq_none]
    simp only [scanLoop, hnone]

/-- A buffer that begins with START: its bytes up to the first END are its first frame, and the loop goes on behind
them. -/
theorem scanBuffer_of_start {mid : Bytes} (rest : Bytes) (hmid : 0xD8#8 ∉ mid) :
    scanBuffer (0x8D#8 :: (mid ++ 0xD8#8 :: rest)) =
      scanLoop (0x8D#8 :: (mid ++ 0xD8#8 :: rest)).length (0x8D#8 :: (mid ++ 0xD8#8 :: rest)) (mid.length + 2)
        [0x8D#8 :: (mid ++ [0xD8#8])] := by
  have hturn := scanLoop_frame (0x8D#8 :: (mid ++ 0xD8#8 :: rest)).length (front := []) (noise := []) (rest := rest) []
    rfl List.not_mem_nil hmid
  have hcursor : ([] : Bytes).length + ([] : Bytes).length + 1 + mid.length + 1 = mid.length + 2 := by
    simp only [List.length_nil]
    omega
  rwa [hcursor] at hturn

/-- START, inner bytes, END: with no END among the inner bytes that is one frame, and nothing is left. -/
theorem scanBuffer_whole {inner : Bytes} (h : 0xD8#8 ∉ inner) :
    scanBuffer (0x8D#8 :: (inner ++ [0xD8#8])) = ([0x8D#8 :: (inner ++ [0xD8#8])], []) := by
  have hend : inner.length + 2 = (0x8D#8 :: (inner ++ [0xD8#8])).length := by simp
  rw [scanBuffer_of_start [] h, hend, scanLoop_at_end]

/-- The first frame of a buffer that begins with START ends at the first END. -/
theorem scanBuffer_head? {mid : Bytes} (rest : Bytes) (h : 0xD8#8 ∉ mid) :
    (scanBuffer (0x8D#8 :: (mid ++ 0xD8#8 :: rest))).1.head? = some (0x8D#8 :: (mid ++ [0xD8#8])) := by
  rw [scanBuffer_of_start rest h, scanLoop_found]
  rfl

/-- START, inner bytes, END: with an END among the inner bytes the first frame is cut there, before the last byte. -/
theorem scanBuffer_cut {inner : Bytes} (h : 0xD8#8 ∈ inner) :
    ∃ front back : Bytes, 0x8D#8 :: (inner ++ [0xD8#8]) = front ++ back ∧ back ≠ [] ∧
      (scanBuffer (0x8D#8 :: (inner ++ [0xD8#8]))).1.head? = some front := by
  obtain ⟨mid, rest, rfl, hmid⟩ := List.eq_append_cons_of_mem h
  refine ⟨0x8D#8 :: (mid ++ [0xD8#8]), rest ++ [0xD8#8], by simp, by simp, ?_⟩
  rw [List.append_assoc, List.cons_append]
  exact scanBuffer_head? (rest ++ [0xD8#8]) hmid

/-- Settles O28: the frame is START, body and checksum, END, and its inner bytes are body and checksum. -/
theorem encodedFrameScansWholeUnlessCut : Obligations.EncodedFrameScansWholeUnlessCut := by
  intro i k s f hkind hexec
  obtain ⟨payload, hemit⟩ := exec_of_frameKind hkind hexec
  rw [emitFrame_eq_sealedFrame] at hemit
  have hf : f = sealedFrame (headerBytes s.cfg k ++ payload) :=
    Option.some.inj (congrArg (fun t : State => t.out.frameOut) hemit)
  subst hf
  generalize headerBytes s.cfg k ++ payload = body
  have hinner : ((sealedFrame body).drop 1).take ((sealedFrame body).length - 2) = body ++ [cs body] := by
    rw [length_sealedFrame]
    exact sealedFrame_bodyAndChecksum body
  have hshape : sealedFrame body = 0x8D#8 :: ((body ++ [cs body]) ++ [0xD8#8]) := by
    simp [sealedFrame, cs_eq_checksumByte]
  rw [hinner, hshape]
  exact ⟨scanBuffer_whole, scanBuffer_cut⟩

end Sys2Proof.Machine

/-! The frame scanner (42_frame_scanner.md): the answer of its loop is the segmentation the rules describe, and a SCAN
reports by it. -/

namespace Sys2Proof.Machine

/-! ### The segmentation (rules R142 to R144) -/

/-- From a cursor on, the loop answers the segmentation of the bytes that stand there, if it has a turn for each of them
and one more. -/
theorem scanLoop_of_segments {rest tail : Bytes} {frames : List Bytes} (h : Segments rest frames tail)
    (front : Bytes) (found : List Bytes) {turns : Nat} (hturns : rest.length ≤ turns) :
    scanLoop (turns + 1) (front ++ rest) front.length found = (found ++ frames, tail) := by
  induction h generalizing front found turns with
  | done noise hn =>
    have hstart : firstFrom startMarker front.length (front ++ noise) = none := by
      rwa [firstFrom_eq_none, List.drop_left]
    simp only [scanLoop, hstart, List.append_nil]
  | partialFrame noise rest hn hr =>
    have hstart : firstFrom startMarker front.length (front ++ (noise ++ 0x8D#8 :: rest)) =
        some (front.length + noise.length) := firstFrom_append 0x8D#8 front noise rest hn
    have htail : (front ++ (noise ++ 0x8D#8 :: rest)).drop (front.length + noise.length) = 0x8D#8 :: rest := by
      rw [← List.append_assoc, ← List.length_append, List.drop_left]
    have hend : firstFrom endMarker (front.length + noise.length + 1) (front ++ (noise ++ 0x8D#8 :: rest)) = none := by
      rw [firstFrom_eq_none, ← List.drop_drop, htail]
      exact hr
    simp only [scanLoop, hstart, hend, htail, List.append_nil]
  | frame noise mid rest frames tail hn hm _ ih =>
    simp only [List.length_append, List.length_cons] at hturns
    obtain ⟨turns, rfl⟩ : ∃ k, turns = k + 1 := Nat.exists_eq_add_one.mpr (by omega)
    rw [scanLoop_frame (turns + 1) found rfl hn hm]
    have hrest : rest.length ≤ turns := by omega
    have hcursor := ih (front ++ noise ++ 0x8D#8 :: (mid ++ [0xD8#8])) (found ++ [0x8D#8 :: (mid ++ [0xD8#8])]) hrest
    simpa [Nat.add_assoc, Nat.add_comm, Nat.add_left_comm] using hcursor

theorem scanBuffer_of_segments {b tail : Bytes} {frames : List Bytes} (h : Segments b frames tail) :
    scanBuffer b = (frames, tail) := scanLoop_of_segments h [] [] (Nat.le_refl _)

/-- Every buffer has a segmentation: the first START splits it, and the first END after that START does so again. -/
theorem exists_segments (b : Bytes) : ∃ frames tail, Segments b frames tail := by
  by_cases hstart : 0x8D#8 ∈ b
  · obtain ⟨noise, fromStart, hb, hn⟩ := List.eq_append_cons_of_mem hstart
    by_cases hend : 0xD8#8 ∈ fromStart
    · obtain ⟨mid, rest, rfl, hm⟩ := List.eq_append_cons_of_mem hend
      have hshorter : rest.length < b.length := by
        simp only [hb, List.length_append, List.length_cons]
        omega
      obtain ⟨frames, tail, h⟩ := exists_segments rest
      rw [hb]
      exact ⟨_, tail, .frame noise mid rest frames tail hn hm h⟩
    · rw [hb]
      exact ⟨_, _, .partialFrame noise fromStart hn hend⟩
  · exact ⟨_, _, .done b hstart⟩
termination_by b.length

theorem segments_iff {b tail : Bytes} {frames : List Bytes} : Segments b frames tail ↔ scanBuffer b = (frames, tail) := by
  refine ⟨scanBuffer_of_segments, fun h => ?_⟩
  obtain ⟨frames', tail', hseg⟩ := exists_segments b
  cases h.symm.trans (scanBuffer_of_segments hseg)
  exact hseg

theorem segments_scanBuffer (b : Bytes) : Segments b (scanBuffer b).1 (scanBuffer b).2 := segments_iff.mpr rfl

/-- Settles O21: the scanner answers every segmentation, and every buffer has one. -/
theorem scanBufferIsTheSegmentation : Obligations.ScanBufferIsTheSegmentation := fun _ _ _ => segments_iff

/-- Bytes without START in front of a buffer are skipped. -/
theorem Segments.noise_append {noise b tail : Bytes} {frames : List Bytes} (hnoise : 0x8D#8 ∉ noise)
    (h : Segments b frames tail) : Segments (noise ++ b) frames tail := by
  have hskip {noise' : Bytes} (hn : 0x8D#8 ∉ noise') : 0x8D#8 ∉ noise ++ noise' := by simp [hnoise, hn]
  cases h with
  | done noise' hn => exact .done _ (hskip hn)
  | partialFrame noise' rest hn hr =>
    rw [← List.append_assoc]
    exact .partialFrame _ rest (hskip hn) hr
  | frame noise' mid rest frames tail hn hm h =>
    rw [← List.append_assoc]
    exact .frame _ mid rest frames tail (hskip hn) hm h

/-- Bytes that arrive later are segmented behind the tail that was left (rule R151). -/
theorem Segments.append {a b tail tail' : Bytes} {frames frames' : List Bytes} (h : Segments a frames tail)
    (h' : Segments (tail ++ b) frames' tail') : Segments (a ++ b) (frames ++ frames') tail' := by
  induction h with
  | done noise hn => exact .noise_append hn h'
  | partialFrame noise rest hn _ =>
    rw [List.append_assoc]
    exact .noise_append hn h'
  | frame noise mid rest frames tail hn hm _ ih =>
    simpa using Segments.frame noise mid (rest ++ b) (frames ++ frames') tail' hn hm (ih h')

theorem scanBuffer_append (a b : Bytes) :
    scanBuffer (a ++ b) =
      ((scanBuffer a).1 ++ (scanBuffer ((scanBuffer a).2 ++ b)).1, (scanBuffer ((scanBuffer a).2 ++ b)).2) :=
  segments_iff.mp ((segments_scanBuffer a).append (segments_scanBuffer _))

/-- Settles O25: the kept bytes and those up to END stand between the markers of one frame, or in the tail. -/
theorem scannerCommitsToFirstStart : Obligations.ScannerCommitsToFirstStart := by
  intro kept upToEnd after hkept hupTo
  have hinner : 0xD8#8 ∉ kept ++ upToEnd := by simp [hkept, hupTo]
  constructor <;> apply scanBuffer_of_segments
  · simpa using Segments.frame [] (kept ++ upToEnd) after _ _ List.not_mem_nil hinner (segments_scanBuffer after)
  · exact .partialFrame [] (kept ++ upToEnd) List.not_mem_nil hinner

/-- A TAIL of the marker form is its own tail: no END completes it. -/
theorem TailMarked.segments {t : Bytes} (h : TailMarked t) : Segments t [] t := by
  rcases h with rfl | ⟨rest, rfl, hr⟩
  · exact .done [] List.not_mem_nil
  · exact .partialFrame [] rest List.not_mem_nil hr

/-! ### The reading of a frame (43_payload_deserializer.md) -/

theorem u32be_eq_toNat_wordAt (frame : Bytes) (o : Nat) : u32be frame o = (wordAt frame o).toNat := by
  rw [wordAt, toNat_append_byte, toNat_append_byte, toNat_append_byte]
  simp only [u32be, byteAt]
  omega

theorem sext32_toNat (w : Word32) : sext32 w.toNat = w.toInt := by
  rw [sext32, BitVec.toInt_eq_toNat_cond]
  split <;> split <;> omega

theorem rawOf_u32be (c : Config) (frame : Bytes) (o : Nat) : rawOf c (u32be frame o) = rawAt c frame o := by
  rw [u32be_eq_toNat_wordAt, rawOf, rawAt, sext32_toNat]

theorem exactRescale_eq_linearMap (raw : Int) : exactRescale raw = linearMap raw := by
  simp [exactRescale, linearMap, scaleMid, scaleRange, scaleDiv, Rat.mkRat_eq_div]

theorem rescale_eq_scaledValue (c : Config) (raw : Int) : rescale c raw = scaledValue c raw := by
  unfold rescale scaledValue
  cases c.scaledFormat with
  | binary64 => rfl
  | exact => exact congrArg Scaled.exact (exactRescale_eq_linearMap raw)

theorem readingOf_eq_frameReading (c : Config) (frame : Bytes) : readingOf c frame = frameReading c frame := by
  simp only [readingOf, frameReading, rawOf_u32be, rescale_eq_scaledValue]

theorem holdsIntegers_iff (c : Config) (frame : Bytes) : HoldsIntegers c frame ↔ locatorLength c ≤ frame.length := by
  unfold HoldsIntegers locatorLength
  omega

/-- A frame that holds both integers is read (43_payload_deserializer.md rule R170). -/
theorem decodeLocator_of_holdsIntegers {frame : Bytes} {s : State} (h : HoldsIntegers s.cfg frame) :
    decodeLocator frame s = answerResult (frameReading s.cfg frame) s := by
  rw [holdsIntegers_iff] at h
  rcases decodeLocator_cases frame s with ⟨_, hd⟩ | ⟨hshort, _⟩
  · rw [hd, readingOf_eq_frameReading]
  · omega

/-- A frame that does not is E_SHORT_LOCATOR (60_exceptions.md rule R197). -/
theorem decodeLocator_of_not_holdsIntegers {frame : Bytes} {s : State} (h : ¬ HoldsIntegers s.cfg frame) :
    decodeLocator frame s = raiseStatus (.shortLocator frame.length) s := by
  rw [holdsIntegers_iff] at h
  rcases decodeLocator_cases frame s with ⟨hlong, _⟩ | ⟨_, hd⟩
  · exact absurd hlong h
  · exact hd

theorem u32be_congr {f g : Bytes} {o : Nat} (h : ∀ j, j < 4 → f[o + j]? = g[o + j]?) : u32be f o = u32be g o := by
  have hbyte (j : Nat) (hj : j < 4) : byteAt f (o + j) = byteAt g (o + j) := by
    simp only [byteAt, List.getD_eq_getElem?_getD, h j hj]
  have h0 : byteAt f o = byteAt g o := hbyte 0 (by decide)
  simp only [u32be, h0, hbyte 1 (by decide), hbyte 2 (by decide), hbyte 3 (by decide)]

/-- Settles O34: the length decides whether the frame is read, and the integer fields give the reading. -/
theorem deserLocatorIgnoresOtherBytes : Obligations.DeserLocatorIgnoresOtherBytes := by
  intro f g s hlength hbytes
  have hreading : readingOf s.cfg f = readingOf s.cfg g := by
    rw [readingOf, readingOf, u32be_congr fun j hj => (hbytes j hj).1, u32be_congr fun j hj => (hbytes j hj).2]
  have hdecode : decodeLocator f s = decodeLocator g s := by
    rw [decodeLocator, decodeLocator, hlength, hreading]
  exact congrArg Host.Outcome.next hdecode

/-! ### What a SCAN writes and reports (rules R140, R145, R147 and R148) -/

theorem isLocator_iff (c : Config) (frame : Bytes) : isLocator c frame = true ↔ LocatorReport c frame := beq_iff_eq

/-- A new tail that fits is written, and the last frame is reported on. -/
theorem scanChunk_of_fits {chunk tail : Bytes} {s : State} {frames : List Bytes}
    (hseg : Segments (s.tail ++ chunk) frames tail) (hfits : TailFits s.cfg tail) :
    scanChunk chunk s = reportLast frames.getLast? (s.setTail tail) := by
  rw [← overflows_eq_false_iff] at hfits
  rcases scanChunk_cases chunk s with ⟨hover, _⟩ | ⟨_, h⟩
  · rw [scanBuffer_of_segments hseg, hfits] at hover
    cases hover
  · rw [h, scanBuffer_of_segments hseg]

/-- A new tail that does not fit leaves a free TAIL and E_TAIL_OVERFLOW, whatever the frames (rule R145). -/
theorem scanChunk_of_not_fits {chunk tail : Bytes} {s : State} {frames : List Bytes}
    (hseg : Segments (s.tail ++ chunk) frames tail) (hover : ¬ TailFits s.cfg tail) :
    scanChunk chunk s = raiseStatus (.tailOverflow tail.length) (drawTail s) := by
  rw [← overflows_eq_false_iff] at hover
  rcases scanChunk_cases chunk s with ⟨_, h⟩ | ⟨hfits, _⟩
  · rw [h, scanBuffer_of_segments hseg]
  · rw [scanBuffer_of_segments hseg] at hfits
    exact absurd hfits hover

theorem reportLast_of_holdsIntegers {frame : Bytes} {s : State} (hreport : LocatorReport s.cfg frame)
    (hholds : HoldsIntegers s.cfg frame) :
    reportLast (some frame) s = answerResult (frameReading s.cfg frame) s := by
  rw [reportLast_locator ((isLocator_iff _ _).mpr hreport), decodeLocator_of_holdsIntegers hholds]

theorem reportLast_of_not_holdsIntegers {frame : Bytes} {s : State} (hreport : LocatorReport s.cfg frame)
    (hshort : ¬ HoldsIntegers s.cfg frame) :
    reportLast (some frame) s = raiseStatus (.shortLocator frame.length) s := by
  rw [reportLast_locator ((isLocator_iff _ _).mpr hreport), decodeLocator_of_not_holdsIntegers hshort]

theorem reportLast_of_no_report {last : Option Bytes} {s : State}
    (h : ∀ frame, last = some frame → ¬ LocatorReport s.cfg frame) : reportLast last s = answerResult .nodata s := by
  cases last with
  | none => exact reportLast_none s
  | some frame =>
    have hother := h frame rfl
    rw [← isLocator_iff, Bool.not_eq_true] at hother
    exact reportLast_other hother

/-- Settles O22: the new tail is written, and the last frame is decoded, or is no report. -/
theorem scanReportsTheLastFrame : Obligations.ScanReportsTheLastFrame := by
  intro chunk s frames tail hseg hfits
  have hscan {t : State} (h : reportLast frames.getLast? (s.setTail tail) = t) : exec (.scan chunk) s = .next t :=
    congrArg Host.Outcome.next ((scanChunk_of_fits hseg hfits).trans h)
  refine ⟨fun frame hlast hreport hholds => hscan ?_, fun frame hlast hreport hshort => hscan ?_, fun hno => hscan ?_⟩
  · rw [hlast]
    exact reportLast_of_holdsIntegers hreport hholds
  · rw [hlast]
    exact reportLast_of_not_holdsIntegers hreport hshort
  · exact reportLast_of_no_report hno

/-- Settles O26: a marked TAIL holds no frame and is its own tail. -/
theorem emptyChunkKeepsTail : Obligations.EmptyChunkKeepsTail := by
  intro s hmarked hfits
  have hseg : Segments (s.tail ++ []) [] s.tail := by
    rw [List.append_nil]
    exact hmarked.segments
  obtain ⟨_, _, hnodata⟩ := scanReportsTheLastFrame [] s [] s.tail hseg hfits
  exact hnodata nofun

/-! ### The capacity of TAIL (rule R196) -/

theorem tailFits_of_unbounded {c : Config} (h : c.tailCap = none) (t : Bytes) : TailFits c t := fun n hn => by
  rw [h] at hn
  cases hn

theorem reportLast_status_ne_tailOverflow (last : Option Bytes) (s : State) (n : Nat) :
    (reportLast last s).out.status ≠ some (.tailOverflow n) := by
  rcases reportLast_cases last s with ⟨r, h⟩ | ⟨k, h⟩ <;> rw [h] <;> nofun

/-- No request answers E_TAIL_OVERFLOW while TAIL_CAP is unbounded. -/
theorem exec_status_ne_tailOverflow {i : Instr} {s t : State} (hcap : s.cfg.tailCap = none) (h : exec i s = .next t)
    (n : Nat) : t.out.status ≠ some (.tailOverflow n) := by
  rcases exec_cases h with ⟨k, payload, rfl⟩ | ⟨b, rfl⟩ | ⟨f, rfl⟩ | ⟨op, rfl⟩ | ⟨chunk, rfl⟩
  · nofun
  · nofun
  · rcases decodeLocator_cases f s with ⟨_, hd⟩ | ⟨_, hd⟩ <;> rw [hd] <;> nofun
  · nofun
  · rw [scanChunk_of_fits (segments_scanBuffer _) (tailFits_of_unbounded hcap _)]
    exact reportLast_status_ne_tailOverflow _ _ n

/-- Settles O23: the segmentation's tail does not fit, so the overflow is raised over a drawn TAIL. -/
theorem tailOverflowIsReported : Obligations.TailOverflowIsReported := by
  refine ⟨fun chunk s frames tail cap hseg hcap hlong => ?_, fun _ => ⟨rfl, rfl⟩,
    fun _ _ _ hcap hexec => exec_status_ne_tailOverflow hcap hexec⟩
  have hover : ¬ TailFits s.cfg tail := fun hfits => Nat.not_le.mpr hlong (hfits cap hcap)
  exact ⟨_, congrArg Host.Outcome.next (scanChunk_of_not_fits hseg hover), rfl, rfl, rfl, rfl⟩

theorem scanChunk_tail_of_unbounded {s : State} (hcap : s.cfg.tailCap = none) (chunk : Bytes) :
    (scanChunk chunk s).tail = (scanBuffer (s.tail ++ chunk)).2 := by
  rw [scanChunk_of_fits (segments_scanBuffer _) (tailFits_of_unbounded hcap _), reportLast_tail, State.setTail_tail]

/-- Settles O24: the segmentation of the second chunk behind the first tail continues that of the first, and an
unbounded TAIL holds every tail. -/
theorem chunkingDoesNotChangeSegmentation : Obligations.ChunkingDoesNotChangeSegmentation := by
  refine ⟨fun t a b => ?_, fun s a b hcap => ⟨_, _, _, rfl, rfl, rfl, ?_⟩⟩
  · rw [← List.append_assoc, scanBuffer_append (t ++ a) b]
    exact ⟨rfl, rfl⟩
  · have hcap' : (scanChunk a s).cfg.tailCap = none := by rw [(scanChunk_completed a s).cfg, hcap]
    rw [scanChunk_tail_of_unbounded hcap', scanChunk_tail_of_unbounded hcap, scanChunk_tail_of_unbounded hcap,
      ← List.append_assoc, scanBuffer_append (s.tail ++ a) b]

/-! ### The inbound locator row (log 2) -/

/-- Settles O47: the row is a SCAN of its bytes, which are one frame with nothing left, and that frame is a report. -/
theorem locatorRowReportsItsReading : Obligations.LocatorRowReportsItsReading := by
  intro b1 b2 b3 rest s htail hrecog hno hholds
  have hinner : 0xD8#8 ∉ b1 :: b2 :: b3 :: 0x3D#8 :: rest := by simpa using hno
  have hseg : Segments (s.tail ++ locatorFrame b1 b2 b3 (rest ++ [0xD8#8]))
      [locatorFrame b1 b2 b3 (rest ++ [0xD8#8])] s.tail := by
    rw [htail]
    exact .frame [] _ [] [] [] List.not_mem_nil hinner (.done [] List.not_mem_nil)
  have hfits : TailFits s.cfg s.tail := fun n _ => htail ▸ Nat.zero_le n
  have hreport : LocatorReport s.cfg (locatorFrame b1 b2 b3 (rest ++ [0xD8#8])) := by
    rw [LocatorReport, hrecog]
    rfl
  obtain ⟨hreading, _, _⟩ := scanReportsTheLastFrame _ s _ s.tail hseg hfits
  exact hreading _ rfl hreport hholds

end Sys2Proof.Machine

/-! Binary64 rounding (43_payload_deserializer.md rule R173; log 13): the rounding of a fraction and of a product is the
finite pattern nearest to the exact value, ties to even. Every finite value lies on the grid of the rounded value's last
place, or is too small to be nearer. -/

namespace Sys2Proof.Machine

/-! ### Rounding to an integer -/

/-- `m` is nearest to `y` among the integers, and even where `y` lies halfway between two of them. -/
structure NearestInt (y : Rat) (m : Nat) : Prop where
  near : |(m : Rat) - y| ≤ 1 / 2
  even_of_tie : |(m : Rat) - y| = 1 / 2 → m % 2 = 0

theorem roundHalfEven_nearestInt (n : Nat) {d : Nat} (hd : 0 < d) : NearestInt ((n : Rat) / d) (roundHalfEven n d) := by
  obtain ⟨hup, hlow, htie⟩ := roundHalfEven_spec n d hd
  have hd' : (0 : Rat) < d := by exact_mod_cast hd
  obtain ⟨y, hy⟩ : ∃ y : Rat, (n : Rat) / d = y := ⟨_, rfl⟩
  have hn : (n : Rat) = y * d := (div_eq_iff hd'.ne').mp hy
  rw [hy]
  generalize roundHalfEven n d = m at *
  have hup' : (2 * n : Rat) ≤ (2 * m + 1) * d := by exact_mod_cast hup
  have hlow' : (2 * m * d : Rat) ≤ 2 * n + d := by exact_mod_cast hlow
  refine ⟨abs_le.mpr ⟨by nlinarith, by nlinarith⟩, fun h => htie ?_⟩
  rcases (abs_eq (by norm_num)).mp h with h | h
  · right
    have : (2 * m * d : Rat) = 2 * n + d := by rw [hn]; linear_combination 2 * d * h
    exact_mod_cast this
  · left
    have : (2 * n : Rat) = (2 * m + 1) * d := by rw [hn]; linear_combination -2 * d * h
    exact_mod_cast this

theorem roundAtExponent_nearestInt (n : Nat) {d : Nat} (hd : 0 < d) (e : Int) :
    NearestInt ((n : Rat) / d / 2 ^ e) (roundAtExponent n d e) := by
  cases e with
  | ofNat j => simpa [roundAtExponent, div_div] using roundHalfEven_nearestInt n (d := d * 2 ^ j) (by positivity)
  | negSucc j =>
    simpa [roundAtExponent, zpow_negSucc, div_mul_eq_mul_div] using roundHalfEven_nearestInt (n * 2 ^ (j + 1)) hd

theorem NearestInt.le_of_int {y : Rat} {m : Nat} (h : NearestInt y m) (k : Int) :
    |(m : Rat) - y| ≤ |(k : Rat) - y| ∧ (|(k : Rat) - y| = |(m : Rat) - y| → (k : Rat) ≠ m → m % 2 = 0) := by
  by_cases hk : k = m
  · subst hk
    exact ⟨le_rfl, fun _ hne => absurd rfl hne⟩
  · have hgap : (1 : Rat) ≤ |(k : Rat) - m| := by exact_mod_cast Int.one_le_abs (sub_ne_zero.mpr hk)
    have htri : |(k : Rat) - m| ≤ |(k : Rat) - y| + |(m : Rat) - y| := by
      rw [abs_sub_comm (m : Rat) y]
      exact abs_sub_le _ _ _
    have hnear := h.near
    exact ⟨by linarith, fun heq _ => h.even_of_tie (by linarith)⟩

theorem NearestInt.le_of_le {y : Rat} {m k : Nat} (h : NearestInt y m) (hk : (k : Rat) ≤ y) : k ≤ m := by
  have hnear := (abs_le.mp h.near).1
  have : (k : Rat) < m + 1 := by linarith
  exact Nat.lt_succ_iff.mp (by exact_mod_cast this)

theorem NearestInt.le_of_ge {y : Rat} {m k : Nat} (h : NearestInt y m) (hk : y ≤ k) : m ≤ k := by
  have hnear := (abs_le.mp h.near).2
  have : (m : Rat) < k + 1 := by linarith
  exact Nat.lt_succ_iff.mp (by exact_mod_cast this)

/-! ### Patterns and their values (log 13) -/

theorem value64_eq (b : BitVec 64) : value64 b = signedSignificand b * 2 ^ scaleExponent b := by
  have hsign : (signedSignificand b : Rat) = (if b.toNat < 2 ^ 63 then 1 else -1) * significand b := by
    unfold signedSignificand
    split <;> push_cast <;> ring
  rw [hsign, mul_assoc]
  unfold value64 significand scaleExponent
  by_cases hsub : exponentField b = 0
  · rw [if_pos hsub, hsub]
    exact congrArg _ (if_pos hsub)
  · rw [if_neg hsub, max_eq_left (by omega)]
    exact congrArg _ (if_neg hsub)

theorem abs_signedSignificand_lt (b : BitVec 64) : |(signedSignificand b : Rat)| < 2 ^ 53 := by
  have hbound : (signedSignificand b).natAbs < 2 ^ 53 := by
    unfold signedSignificand significand fractionField
    split <;> split <;> omega
  rw [← Int.cast_abs, Int.abs_eq_natAbs]
  exact_mod_cast hbound

theorem value64_zero : value64 0#64 = 0 := by norm_num [value64]

/-- The number that a sign bit stands for. -/
def signFactor (neg : Prop) [Decidable neg] : Rat := if neg then -1 else 1

/-- The fields of a pattern that is written as their sum give its value (IEEE-754). -/
theorem value64_of_fields {b : BitVec 64} {neg : Prop} [Decidable neg] {field fraction : Nat}
    (hb : b.toNat = field * 2 ^ 52 + fraction + if neg then 2 ^ 63 else 0) (hfield : field < 2047)
    (hfraction : fraction < 2 ^ 52) :
    finite64 b = true ∧ value64 b = signFactor neg * (if field = 0 then (fraction : Rat) * 2 ^ (-1074 : Int)
      else (2 ^ 52 + fraction) * 2 ^ ((field : Int) - 1075)) := by
  have hexponent : b.toNat / 2 ^ 52 % 2 ^ 11 = field := by split at hb <;> omega
  have hmantissa : b.toNat % 2 ^ 52 = fraction := by split at hb <;> omega
  have hsign : b.toNat < 2 ^ 63 ↔ ¬ neg := by
    split at hb
    case isTrue hneg => exact iff_of_false (by omega) (not_not.mpr hneg)
    case isFalse hpos => exact iff_of_true (by omega) hpos
  unfold finite64 value64 signFactor
  rw [hexponent, hmantissa]
  simp only [hsign, ite_not]
  exact ⟨decide_eq_true hfield, by simp only [Nat.cast_add, Nat.cast_pow, Nat.cast_ofNat]⟩

/-- The sum of an exponent and a mantissa is the pattern of their product, also where the mantissa carries. -/
theorem value64_of_mantissa {b : BitVec 64} {neg : Prop} [Decidable neg] {k m : Nat}
    (hb : b.toNat = k * 2 ^ 52 + m + if neg then 2 ^ 63 else 0) (hk : k ≤ 2044) (hlead : k = 0 ∨ 2 ^ 52 ≤ m)
    (hm : m ≤ 2 ^ 53) : finite64 b = true ∧ value64 b = signFactor neg * (m * 2 ^ ((k : Int) - 1074)) := by
  rcases Nat.lt_or_ge m (2 ^ 52) with hsub | hnormal
  · obtain rfl : k = 0 := by omega
    have hfields := value64_of_fields hb (by omega) hsub
    rwa [if_pos rfl] at hfields
  rcases Nat.lt_or_ge m (2 ^ 53) with hsize | hcarry
  · obtain ⟨f, rfl⟩ := Nat.exists_eq_add_of_le hnormal
    obtain ⟨hfinite, hvalue⟩ :=
      value64_of_fields (field := k + 1) (fraction := f) (by rw [hb]; ring) (by omega) (by omega)
    refine ⟨hfinite, ?_⟩
    rw [hvalue, if_neg (by omega), show ((k + 1 : Nat) : Int) - 1075 = (k : Int) - 1074 by push_cast; ring]
    push_cast
    rfl
  · obtain rfl : m = 2 ^ 53 := by omega
    obtain ⟨hfinite, hvalue⟩ :=
      value64_of_fields (field := k + 2) (fraction := 0) (by rw [hb]; ring) (by omega) (by omega)
    refine ⟨hfinite, ?_⟩
    rw [hvalue, if_neg (by omega), show ((k + 2 : Nat) : Int) - 1075 = (k : Int) - 1074 + 1 by push_cast; ring,
      zpow_add_one₀ (by norm_num)]
    push_cast
    ring

/-! ### The last place of a value -/

/-- `2 ^ e` is the last place of binary64 at the size of `x`: the subnormal limit, or 52 places below the leading bit. -/
structure LastPlace (x : Rat) (e : Int) : Prop where
  size : e = -1074 ∨ 2 ^ 52 ≤ x / 2 ^ e
  below : x / 2 ^ e ≤ 2 ^ 53

theorem LastPlace.mantissa_le {x : Rat} {e : Int} {m : Nat} (hplace : LastPlace x e) (hnear : NearestInt (x / 2 ^ e) m) :
    m ≤ 2 ^ 53 := hnear.le_of_ge (by exact_mod_cast hplace.below)

/-- `v` is a multiple of `2 ^ e`, or smaller than the values whose last place is `2 ^ e`. -/
def OnGrid (e : Int) (v : Rat) : Prop := (∃ k : Int, v = k * 2 ^ e) ∨ (-1074 < e ∧ |v| < 2 ^ 52 * 2 ^ e)

theorem OnGrid.neg {e : Int} {v : Rat} (h : OnGrid e v) : OnGrid e (-v) := by
  rcases h with ⟨k, rfl⟩ | h
  · exact .inl ⟨-k, by push_cast; ring⟩
  · exact .inr (by rwa [abs_neg])

theorem value64_onGrid (c : BitVec 64) (e : Int) : OnGrid e (value64 c) := by
  rw [value64_eq]
  rcases le_or_gt e (scaleExponent c) with hle | hlt
  · obtain ⟨j, hj⟩ := Int.le.dest hle
    refine .inl ⟨signedSignificand c * 2 ^ j, ?_⟩
    rw [← hj, zpow_add₀ (by norm_num), zpow_natCast]
    push_cast
    ring
  · have hmin : -1074 ≤ scaleExponent c := by unfold scaleExponent; omega
    refine .inr ⟨by omega, ?_⟩
    have hpow : (2 : Rat) ^ scaleExponent c ≤ 2 ^ (e - 1) := zpow_le_zpow_right₀ (by norm_num) (by omega)
    rw [abs_mul, abs_of_pos (zpow_pos (by norm_num : (0 : Rat) < 2) _)]
    calc |(signedSignificand c : Rat)| * 2 ^ scaleExponent c
        < 2 ^ 53 * 2 ^ scaleExponent c := by
          exact mul_lt_mul_of_pos_right (abs_signedSignificand_lt c) (by positivity)
      _ ≤ 2 ^ 53 * 2 ^ (e - 1) := by gcongr
      _ = 2 ^ 52 * 2 ^ e := by rw [zpow_sub_one₀ (by norm_num)]; ring

/-- The nearest multiple of the last place is nearest among all grid values: a smaller one off the multiples is farther
away than `2 ^ 52` last places, which is a multiple. -/
theorem NearestInt.le_of_onGrid {x v : Rat} {m : Nat} {e : Int} (h : NearestInt (x / 2 ^ e) m)
    (hplace : LastPlace x e) (hv : OnGrid e v) :
    |m * 2 ^ e - x| ≤ |v - x| ∧ (|v - x| = |m * 2 ^ e - x| → v ≠ m * 2 ^ e → m % 2 = 0) := by
  have hu : (0 : Rat) < 2 ^ e := zpow_pos (by norm_num) e
  have hsize := hplace.size
  obtain ⟨y, rfl⟩ : ∃ y : Rat, x = y * 2 ^ e := ⟨x / 2 ^ e, by field_simp⟩
  rw [mul_div_cancel_right₀ _ hu.ne'] at h hsize
  unfold OnGrid at hv
  generalize (2 : Rat) ^ e = u at *
  have hscale (a : Rat) : |a * u - y * u| = |a - y| * u := by rw [← sub_mul, abs_mul, abs_of_pos hu]
  rcases hv with ⟨k, rfl⟩ | ⟨he, hsmall⟩
  · obtain ⟨hle, htie⟩ := h.le_of_int k
    rw [hscale, hscale]
    exact ⟨by gcongr, fun heq hne => htie (mul_right_cancel₀ hu.ne' heq) fun hk => hne (by rw [hk])⟩
  · have hlead : 2 ^ 52 ≤ y := hsize.resolve_left (by omega)
    have hfar : |(m : Rat) * u - y * u| < |v - y * u| := by
      have hfirst := (h.le_of_int (2 ^ 52)).1
      rw [Int.cast_pow, Int.cast_ofNat] at hfirst
      calc |(m : Rat) * u - y * u| = |(m : Rat) - y| * u := hscale m
        _ ≤ |2 ^ 52 - y| * u := mul_le_mul_of_nonneg_right hfirst hu.le
        _ = y * u - 2 ^ 52 * u := by rw [abs_of_nonpos (by linarith)]; ring
        _ < y * u - v := by linarith [(abs_lt.mp hsmall).2]
        _ ≤ |v - y * u| := by rw [abs_sub_comm]; exact le_abs_self _
    exact ⟨hfar.le, fun heq => absurd heq hfar.ne'⟩

/-! ### Rounding to a pattern (rule R173) -/

/-- Every finite pattern lies on the grid of the rounded value, so the nearest grid point is the nearest of them. -/
theorem nearestEven_of_nearestInt {x : Rat} {b : BitVec 64} {neg : Prop} [Decidable neg] {m : Nat} {e : Int}
    (h : NearestInt (x / 2 ^ e) m) (hplace : LastPlace x e)
    (hfinite : finite64 b = true) (hvalue : value64 b = signFactor neg * (m * 2 ^ e))
    (hparity : b.toNat % 2 = m % 2) : NearestEven (signFactor neg * x) b := by
  refine ⟨hfinite, fun c _ => ?_⟩
  have hgrid := value64_onGrid c e
  rw [hvalue, hparity]
  by_cases hneg : neg
  · obtain ⟨hle, htie⟩ := h.le_of_onGrid hplace hgrid.neg
    rw [signFactor, if_pos hneg]
    have hflip (a : Rat) : |a - -1 * x| = |-a - x| := by rw [← abs_neg]; congr 1; ring
    rw [hflip, hflip, neg_one_mul, neg_neg]
    exact ⟨hle, fun heq hne => htie heq fun hc => hne (neg_eq_iff_eq_neg.mp hc)⟩
  · rw [signFactor, if_neg hneg, one_mul, one_mul]
    exact h.le_of_onGrid hplace hgrid

theorem ulpExponent_lastPlace {n d : Nat} (hn : 0 < n) (hd : 0 < d) : LastPlace (n / d) (ulpExponent n d) := by
  obtain ⟨hlow, hhigh⟩ := floorLog2_spec n d hn hd
  have hu : (0 : Rat) < 2 ^ ulpExponent n d := zpow_pos (by norm_num) _
  have hshift (i : Nat) : (2 : Rat) ^ i * 2 ^ ulpExponent n d = 2 ^ ((i : Int) + ulpExponent n d) := by
    rw [zpow_add₀ (by norm_num), zpow_natCast]
  have hmono {i j : Int} (h : i ≤ j) : (2 : Rat) ^ i ≤ 2 ^ j := zpow_le_zpow_right₀ (by norm_num) h
  constructor
  · rcases le_or_gt (floorLog2 n d - 52) (-1074) with hsub | hnormal
    · exact .inl (max_eq_right hsub)
    · have he : ulpExponent n d = floorLog2 n d - 52 := max_eq_left hnormal.le
      rw [le_div_iff₀ hu, hshift]
      exact .inr ((hmono (by omega)).trans hlow)
  · have he : floorLog2 n d - 52 ≤ ulpExponent n d := le_max_left _ _
    rw [div_le_iff₀ hu, hshift]
    exact hhigh.le.trans (hmono (by omega))

theorem ulpExponent_le {n d : Nat} (hn : 0 < n) (hd : 0 < d) (hbound : (n : Rat) / d < 2 ^ 1023) :
    ulpExponent n d ≤ 970 := by
  have hlow := (floorLog2_spec n d hn hd).1.trans_lt hbound
  rw [← zpow_natCast, zpow_lt_zpow_iff_right₀ (by norm_num)] at hlow
  unfold ulpExponent
  push_cast at hlow
  omega

/-- The magnitude of a fraction inside the range of binary64 is the sum of the exponent of its last place and the nearest
mantissa there. -/
theorem magnitudeBits_spec (n : Nat) {d : Nat} (hd : 0 < d) (hbound : (n : Rat) / d < 2 ^ 1023) :
    ∃ k m : Nat, magnitudeBits n d = k * 2 ^ 52 + m ∧ k ≤ 2044 ∧ LastPlace (n / d) ((k : Int) - 1074) ∧
      NearestInt ((n : Rat) / d / 2 ^ ((k : Int) - 1074)) m := by
  rcases Nat.eq_zero_or_pos n with rfl | hn
  · exact ⟨0, 0, rfl, by omega, ⟨.inl rfl, by norm_num⟩, ⟨by norm_num, fun _ => rfl⟩⟩
  · have hplace := ulpExponent_lastPlace hn hd
    have hnear := roundAtExponent_nearestInt n hd (ulpExponent n d)
    have hmax := ulpExponent_le hn hd hbound
    have hmin : -1074 ≤ ulpExponent n d := le_max_right _ _
    have hm := hplace.mantissa_le hnear
    have hk : (((ulpExponent n d + 1074).toNat : Nat) : Int) - 1074 = ulpExponent n d := by omega
    refine ⟨(ulpExponent n d + 1074).toNat, roundAtExponent n d (ulpExponent n d), ?_, by omega, by rwa [hk],
      by rwa [hk]⟩
    rw [magnitudeBits, if_neg hn.ne', infinityBits, min_eq_left (by omega)]

/-- A fraction inside the range of binary64 is rounded to nearest even. -/
theorem roundBinary64_nearestEven (num : Int) {den : Nat} (hden : 0 < den)
    (hbound : |(num : Rat) / den| < 2 ^ 1023) : NearestEven (num / den) (roundBinary64 num den) := by
  have hnum : (num : Rat) = signFactor (num < 0) * num.natAbs := by
    rw [Nat.cast_natAbs, Int.cast_abs, signFactor]
    split
    case isTrue hneg => rw [abs_of_neg (by exact_mod_cast hneg), neg_one_mul, neg_neg]
    case isFalse hpos => rw [abs_of_nonneg (by exact_mod_cast not_lt.mp hpos), one_mul]
  rw [abs_div, Nat.abs_cast, ← Int.cast_abs, ← Nat.cast_natAbs] at hbound
  obtain ⟨k, m, hbits, hk, hplace, hnear⟩ := magnitudeBits_spec num.natAbs hden hbound
  have hlead : k = 0 ∨ 2 ^ 52 ≤ m := hplace.size.imp (fun h => by omega) fun h => hnear.le_of_le (by exact_mod_cast h)
  have hpattern : (roundBinary64 num den).toNat = k * 2 ^ 52 + m + if num < 0 then 2 ^ 63 else 0 := by
    rw [roundBinary64, BitVec.toNat_ofNat, hbits]
    have hm := hplace.mantissa_le hnear
    exact Nat.mod_eq_of_lt (by split <;> omega)
  obtain ⟨hfinite, hvalue⟩ := value64_of_mantissa hpattern hk hlead (hplace.mantissa_le hnear)
  rw [hnum, mul_div_assoc]
  exact nearestEven_of_nearestInt hnear hplace hfinite hvalue (by rw [hpattern]; split <;> omega)

/-- The product is rounded once, from the exact product of the pattern's value. -/
theorem mulRound_nearestEven (b : BitVec 64) (factor : Int) (hbound : |value64 b * factor| < 2 ^ 1023) :
    NearestEven (value64 b * factor) (mulRound b factor) := by
  rw [value64_eq] at hbound ⊢
  unfold mulRound
  cases hscale : scaleExponent b with
  | ofNat j =>
    have hproduct : (signedSignificand b : Rat) * 2 ^ Int.ofNat j * factor =
        ((signedSignificand b * factor * 2 ^ j : Int) : Rat) / (1 : Nat) := by
      rw [Int.ofNat_eq_natCast, zpow_natCast]
      push_cast
      ring
    rw [hscale, hproduct] at hbound
    rw [hproduct]
    exact roundBinary64_nearestEven _ Nat.one_pos hbound
  | negSucc j =>
    have hproduct : (signedSignificand b : Rat) * 2 ^ Int.negSucc j * factor =
        ((signedSignificand b * factor : Int) : Rat) / (2 ^ (j + 1) : Nat) := by
      rw [zpow_negSucc]
      push_cast
      ring
    rw [hscale, hproduct] at hbound
    rw [hproduct]
    exact roundBinary64_nearestEven _ (by positivity) hbound

/-! ### What rounding keeps -/

/-- A value that some pattern has, and that is at most `q`, is at most the rounding of `q`. -/
theorem NearestEven.le_value {q : Rat} {b c : BitVec 64} (h : NearestEven q b) (hc : finite64 c = true)
    (hle : value64 c ≤ q) : value64 c ≤ value64 b := by
  have hnear := (h.2 c hc).1
  rw [abs_of_nonpos (sub_nonpos.mpr hle)] at hnear
  linarith [neg_abs_le (value64 b - q)]

theorem NearestEven.value_le {q : Rat} {b c : BitVec 64} (h : NearestEven q b) (hc : finite64 c = true)
    (hle : q ≤ value64 c) : value64 b ≤ value64 c := by
  have hnear := (h.2 c hc).1
  rw [abs_of_nonneg (sub_nonneg.mpr hle)] at hnear
  linarith [le_abs_self (value64 b - q)]

/-- The values 4 and -4 have patterns, so nothing between them is rounded past them. -/
theorem NearestEven.abs_value_le_four {q : Rat} {b : BitVec 64} (h : NearestEven q b) (hq : |q| ≤ 4) :
    |value64 b| ≤ 4 := by
  have hfour : value64 0x4010000000000000#64 = 4 := by norm_num [value64]
  have hminusFour : value64 0xC010000000000000#64 = -4 := by norm_num [value64]
  obtain ⟨hlow, hhigh⟩ := abs_le.mp hq
  have hbelow := h.le_value (c := 0xC010000000000000#64) rfl (hminusFour.trans_le hlow)
  have habove := h.value_le (c := 0x4010000000000000#64) rfl (hhigh.trans_eq hfour.symm)
  exact abs_le.mpr ⟨hminusFour.symm.trans_le hbelow, habove.trans_eq hfour⟩

/-- The values `1 / 2 ^ 31` and its negative have patterns, so nothing beyond them is rounded towards zero past them. -/
theorem NearestEven.tiny_le_abs_value {q : Rat} {b : BitVec 64} (h : NearestEven q b) (hq : 1 / 2 ^ 31 ≤ |q|) :
    1 / 2 ^ 31 ≤ |value64 b| := by
  have htiny : value64 0x3E00000000000000#64 = 1 / 2 ^ 31 := by norm_num [value64]
  have hminusTiny : value64 0xBE00000000000000#64 = -(1 / 2 ^ 31) := by norm_num [value64]
  rcases le_abs.mp hq with hpos | hneg
  · have hbelow := h.le_value (c := 0x3E00000000000000#64) rfl (htiny.trans_le hpos)
    exact le_abs.mpr (.inl (htiny.symm.trans_le hbelow))
  · have habove := h.value_le (c := 0xBE00000000000000#64) rfl ((le_neg_of_le_neg hneg).trans_eq hminusTiny.symm)
    exact le_abs.mpr (.inr (le_neg_of_le_neg (habove.trans_eq hminusTiny)))

end Sys2Proof.Machine

/-! The payload deserializer (43_payload_deserializer.md): what DESER_LOCATOR answers, how the raw integer is read, and
the two forms of the rescale. -/

namespace Sys2Proof.Machine

/-! ### DESER_LOCATOR (rules R170, R175 and R197) -/

/-- Settles O29: `decodeLocator` answers the reading, or raises E_SHORT_LOCATOR. -/
theorem deserLocatorReadsOrFaults : Obligations.DeserLocatorReadsOrFaults := fun _ _ =>
  ⟨fun hholds => congrArg Host.Outcome.next (decodeLocator_of_holdsIntegers hholds),
    fun hshort => congrArg Host.Outcome.next (decodeLocator_of_not_holdsIntegers hshort), rfl⟩

/-- Settles O30: the integer read is that of the four-byte pattern, and a pattern's sign is its top bit. -/
theorem signedAndUnsignedRawReadings : Obligations.SignedAndUnsignedRawReadings := by
  intro c frame o
  rw [rawOf_u32be, rawAt]
  refine ⟨fun hsigned => if_pos hsigned, fun hunsigned => if_neg (by simp [hunsigned]),
    fun hclear => BitVec.toInt_eq_toNat_of_lt (by omega), fun hset => ?_⟩
  rw [BitVec.toInt_eq_toNat_cond, if_neg (by omega)]
  rfl

/-! ### The linear map (rule R172) -/

theorem linearMap_strictMono : StrictMono linearMap := by
  intro a b hab
  have hcast : (a : Rat) < b := by exact_mod_cast hab
  unfold linearMap
  linarith

/-- Settles O31: the map is strictly increasing, so its range ends at the values of the first and the last input. -/
theorem exactRescaleIsTheLinearMap : Obligations.ExactRescaleIsTheLinearMap := by
  have hq : exactRescale = linearMap := funext exactRescale_eq_linearMap
  unfold Obligations.ExactRescaleIsTheLinearMap
  rw [hq]
  have hmin : linearMap (-2147483648) = -68719476720000 / 2147483647 := by norm_num [linearMap]
  have hmid : linearMap 2147483647 = 0 := by norm_num [linearMap]
  have hzero : linearMap 0 = -16000 := by norm_num [linearMap]
  have hmax : linearMap 4294967295 = 34359738368000 / 2147483647 := by norm_num [linearMap]
  refine ⟨fun _ => rfl, hmid, hzero, by norm_num [linearMap], fun raw hlow hhigh => ?_, fun raw hlow hhigh => ?_,
    linearMap_strictMono⟩
  · rw [← hmin, ← hmid]
    exact ⟨linearMap_strictMono.monotone hlow, linearMap_strictMono.monotone hhigh⟩
  · rw [← hzero, ← hmax]
    exact ⟨linearMap_strictMono.monotone hlow, linearMap_strictMono.monotone hhigh⟩

/-! ### The two roundings of the binary64 rescale (rule R173) -/

/-- What fits 64 bits is inside the range of binary64. -/
theorem lt_range_of_le {a : Rat} (h : a ≤ 2 ^ 64) : a < 2 ^ 1023 :=
  h.trans_lt (pow_lt_pow_right₀ (by norm_num) (by norm_num))

/-- The exact quotient of a locator integer is small. -/
theorem abs_quotient_le_four {raw : Int} (hlow : -2147483648 ≤ raw) (hhigh : raw ≤ 4294967295) :
    |((raw : Rat) - 2147483647) / 2147483647| ≤ 4 := by
  have hlow' : (-2147483648 : Rat) ≤ raw := by exact_mod_cast hlow
  have hhigh' : (raw : Rat) ≤ 4294967295 := by exact_mod_cast hhigh
  rw [abs_le]
  constructor <;> linarith

/-- Away from the middle raw value the difference is at least 1, so the quotient is at least `1 / 2147483647`. -/
theorem tiny_le_abs_quotient {raw : Int} (hraw : raw ≠ 2147483647) :
    1 / 2 ^ 31 ≤ |((raw : Rat) - 2147483647) / 2147483647| := by
  have hdiff : (1 : Rat) ≤ |(raw : Rat) - 2147483647| := by exact_mod_cast Int.one_le_abs (sub_ne_zero.mpr hraw)
  rw [abs_div, abs_of_pos (by norm_num : (0 : Rat) < 2147483647)]
  linarith

theorem rescaleQuotient_nearestEven {raw : Int} (hlow : -2147483648 ≤ raw) (hhigh : raw ≤ 4294967295) :
    NearestEven (((raw : Rat) - 2147483647) / 2147483647) (rescaleQuotient raw) := by
  have hquotient : ((raw : Rat) - 2147483647) / 2147483647 = ((raw - scaleMid : Int) : Rat) / (scaleDiv : Nat) := by
    simp [scaleMid, scaleDiv]
  have hsmall := abs_quotient_le_four hlow hhigh
  rw [hquotient] at hsmall ⊢
  exact roundBinary64_nearestEven _ (by decide) (lt_range_of_le (hsmall.trans (by norm_num)))

theorem binary64Rescale_nearestEven {raw : Int} (hlow : -2147483648 ≤ raw) (hhigh : raw ≤ 4294967295) :
    NearestEven (value64 (rescaleQuotient raw) * 16000) (binary64Rescale raw) := by
  have hquotient := (rescaleQuotient_nearestEven hlow hhigh).abs_value_le_four (abs_quotient_le_four hlow hhigh)
  have hbound : |value64 (rescaleQuotient raw) * (scaleRange : Int)| ≤ 2 ^ 64 := by
    rw [scaleRange, Int.cast_ofNat, abs_mul, abs_of_pos (by norm_num : (0 : Rat) < 16000)]
    linarith
  exact mulRound_nearestEven _ _ (lt_range_of_le hbound)

theorem binary64Rescale_mid : binary64Rescale 2147483647 = 0#64 := by decide

/-- Away from the middle value neither rounding reaches zero. -/
theorem value64_binary64Rescale_ne_zero {raw : Int} (hlow : -2147483648 ≤ raw) (hhigh : raw ≤ 4294967295)
    (hraw : raw ≠ 2147483647) : value64 (binary64Rescale raw) ≠ 0 := by
  have hquotient := (rescaleQuotient_nearestEven hlow hhigh).tiny_le_abs_value (tiny_le_abs_quotient hraw)
  have hproduct : 1 / 2 ^ 31 ≤ |value64 (rescaleQuotient raw) * 16000| := by
    rw [abs_mul, abs_of_pos (by norm_num : (0 : Rat) < 16000)]
    linarith
  have hresult := (binary64Rescale_nearestEven hlow hhigh).tiny_le_abs_value hproduct
  exact abs_pos.mp (lt_of_lt_of_le (by norm_num) hresult)

/-- Settles O32: each step is one rounding to nearest even, and 1 / 2 ^ 31 keeps both away from zero. -/
theorem binary64RescaleRoundsTwiceToNearestEven : Obligations.Binary64RescaleRoundsTwiceToNearestEven := by
  intro raw hlow hhigh
  refine ⟨rescaleQuotient_nearestEven hlow hhigh, binary64Rescale_nearestEven hlow hhigh, ⟨fun hzero => ?_, ?_⟩, ?_⟩
  · by_contra hraw
    exact value64_binary64Rescale_ne_zero hlow hhigh hraw hzero
  · rintro rfl
    rw [binary64Rescale_mid, value64_zero]
  · rintro rfl
    exact binary64Rescale_mid

/-- Settles O33: the model's patterns, read as numbers. -/
theorem rescaleExamples : Obligations.RescaleExamples := by
  have hzero : binary64Rescale 0 = 0xC0CF400000000000#64 := by decide
  refine ⟨by rw [binary64Rescale_mid, value64_zero], ?_, by decide⟩
  rw [hzero]
  norm_num [value64]

end Sys2Proof.Machine

/-! Statuses and the fault record (60_exceptions.md): the reserved opcodes, which request can raise which status, and
what a step does to the record. -/

namespace Sys2Proof.Machine

/-! ### Reserved opcodes (rules R195 and R198) -/

/-- A reserved OP selects its reserved row whatever its slots. -/
theorem decodeCommand_reservedOp {op : BitVec 4} (slots : List Slot) (hop : 0xD ≤ op.toNat) :
    ∃ i, decodeCommand op slots = .ok i ∧ reservedOp i = some op := by
  obtain ⟨n, hlow, hhigh, rfl⟩ : ∃ n, 0xD ≤ n ∧ n < 16 ∧ op = BitVec.ofNat 4 n := ⟨op.toNat, hop, op.isLt, by simp⟩
  interval_cases n
  · exact ⟨.reservedD, rfl, rfl⟩
  · exact ⟨.reservedE, rfl, rfl⟩
  · exact ⟨.reservedF, rfl, rfl⟩

theorem reservedOp_eq_some_iff (i : Instr) (op : BitVec 4) : reservedOp i = some op ↔
    (i = .reservedD ∧ op = 0xD#4 ∨ i = .reservedE ∧ op = 0xE#4 ∨ i = .reservedF ∧ op = 0xF#4) := by
  cases i <;> simp [reservedOp, eq_comm]

/-- A reserved row raises E_ILLEGAL_OP with its OP, in every state. -/
theorem exec_of_reservedOp {i : Instr} {op : BitVec 4} (h : reservedOp i = some op) (s : State) :
    exec i s = .next (raiseStatus (.illegalOp op) s) := by
  rcases (reservedOp_eq_some_iff i op).mp h with ⟨rfl, rfl⟩ | ⟨rfl, rfl⟩ | ⟨rfl, rfl⟩ <;> rfl

/-- Settles O19: whatever its slots, a reserved OP decodes to its reserved row, which the step runs. -/
theorem reservedOpcodeIsIllegal : Obligations.ReservedOpcodeIsIllegal := by
  intro op slots rest s hop hc hi
  obtain ⟨i, hdecode, hreserved⟩ := decodeCommand_reservedOp slots hop
  refine ⟨?_, rfl, rfl⟩
  calc step s = exec i (s.setInbox rest) := step_of_fetch_run (fetch_request hc hi hdecode)
    _ = .next (raiseStatus (.illegalOp op) (s.setInbox rest)) := exec_of_reservedOp hreserved _

/-- Settles O20: `exec_of_reservedOp` for each of the three rows. -/
theorem reservedRowsRaiseIllegalOp : Obligations.ReservedRowsRaiseIllegalOp :=
  ⟨fun _ => ⟨rfl, rfl⟩, fun s => ⟨exec_of_reservedOp rfl s, exec_of_reservedOp rfl s, exec_of_reservedOp rfl s⟩⟩

/-! ### Which request can raise which status (rule R190) -/

/-- The statuses instruction `i` may end with. -/
inductive MayShow (i : Instr) : Status → Prop where
  | ok : MayShow i .ok
  | illegalOp {op : BitVec 4} (hop : reservedOp i = some op) : MayShow i (.illegalOp op)
  | shortLocator (n : Nat) (hreads : (scannedBytes i).isSome = true ∨ ∃ f, i = .deserLocator f) :
      MayShow i (.shortLocator n)
  | tailOverflow (n : Nat) (hscans : (scannedBytes i).isSome = true) : MayShow i (.tailOverflow n)

/-- What a request did says which status it shows: only a decode falls short, and only a SCAN overflows TAIL. -/
theorem Ran.mayShow {s t : State} {i : Instr} (h : Ran s i t) : ∃ st, t.out.status = some st ∧ MayShow i st := by
  cases h with
  | frame payload _ _ => exact ⟨_, rfl, .ok⟩
  | csum b => exact ⟨_, rfl, .ok⟩
  | deserLocator f =>
    rcases decodeLocator_cases f s with ⟨_, h⟩ | ⟨_, h⟩ <;> rw [h]
    · exact ⟨_, rfl, .ok⟩
    · exact ⟨_, rfl, .shortLocator _ (.inr ⟨f, rfl⟩)⟩
  | reserved hop => exact ⟨_, rfl, .illegalOp hop⟩
  | @scan _ chunk _ hbytes =>
    have hscans : (scannedBytes i).isSome = true := by rw [hbytes]; rfl
    rcases scanChunk_cases chunk s with ⟨_, h⟩ | ⟨_, h⟩ <;> rw [h]
    · exact ⟨_, rfl, .tailOverflow _ hscans⟩
    · rcases reportLast_cases (scanBuffer (s.tail ++ chunk)).1.getLast? (s.setTail (scanBuffer (s.tail ++ chunk)).2) with
        ⟨r, hr⟩ | ⟨n, hr⟩ <;> rw [hr]
      · exact ⟨_, rfl, .ok⟩
      · exact ⟨_, rfl, .shortLocator n (.inl hscans)⟩

theorem Status.code_toNat_le (st : Status) : st.code.toNat ≤ 3 := by
  cases st <;> simp [Status.code]

/-- A completed request shows E_ILLEGAL_OP exactly when it is the reserved row of that OP. -/
theorem status_eq_illegalOp_iff {i : Instr} {s t : State} (hexec : exec i s = .next t) (op : BitVec 4) :
    t.out.status = some (.illegalOp op) ↔ reservedOp i = some op := by
  constructor
  · intro hshown
    obtain ⟨st, hst, hmay⟩ := (exec_ran hexec).mayShow
    obtain rfl : st = .illegalOp op := Option.some.inj (hst.symm.trans hshown)
    cases hmay with | illegalOp hop => exact hop
  · intro hop
    rw [exec_of_reservedOp hop s] at hexec
    cases hexec
    rfl

/-- Settles O54: the table of codes and infos, and the status `Ran.mayShow` finds. -/
theorem statusByRequest : Obligations.StatusByRequest := by
  refine ⟨⟨rfl, rfl⟩, fun _ => ⟨rfl, rfl⟩, fun _ => ⟨rfl, rfl⟩, fun _ => ⟨rfl, rfl⟩, fun i s t hexec => ?_⟩
  obtain ⟨st, hst, hmay⟩ := (exec_ran hexec).mayShow
  refine ⟨st, hst, by rw [Outputs.statusByte, hst]; rfl, st.code_toNat_le, fun op => ?_, fun n hn => ?_, fun n hn => ?_⟩
  · rw [← reservedOp_eq_some_iff, ← status_eq_illegalOp_iff hexec, hst, Option.some.injEq]
  · subst hn
    cases hmay with | shortLocator _ hreads => exact hreads
  · subst hn
    cases hmay with | tailOverflow _ hscans => exact hscans

/-! ### The fault record (rule R200) -/

/-- A request that has answered left the record alone, or added the fault status it shows. -/
theorem Answered.faults_eq_or_append {s t : State} (h : Answered s t) :
    t.faults = s.faults ∨ ∃ st, st ≠ .ok ∧ t.out.status = some st ∧ t.faults = s.faults ++ [st] := by
  cases h with
  | ok _ _ hfaults => exact .inl hfaults
  | fault hst hout hfaults => exact .inr ⟨_, hst, by rw [hout]; rfl, hfaults⟩

/-- Settles O55, by what a step can do: idle, take a RESET, or run a request to completion. -/
theorem faultRecordOnlyGrows : Obligations.FaultRecordOnlyGrows := by
  intro s t hstep
  rcases step_cases hstep with ⟨_, rfl⟩ | ⟨rest, _, rfl⟩ | ⟨r, rest, i, _, _, hexec⟩
  · exact .inl rfl
  · exact .inl rfl
  · exact (exec_answered hexec).faults_eq_or_append

end Sys2Proof.Machine

/-! Reset and hazards (70_reset_and_hazards.md): a streaming request whose payload is OPEN, and the RESET event. -/

namespace Sys2Proof.Machine

/-! ### OPEN payloads (rule R222) -/

/-- A kind whose configured payload is OPEN is refused by name; `emitConfigured_of_payload` is the other case. -/
theorem emitConfigured_of_open {k : Kind} {s : State} (h : streamPayload s.cfg k = none) :
    emitConfigured k s = .refused (.openPayload k) := by
  simp [emitConfigured, h]

/-- Settles O16: the command and the wire row of each streaming kind both emit its configured payload. -/
theorem openPayloadIsRefused : Obligations.OpenPayloadIsRefused := by
  refine ⟨fun s hopen => ?_, fun s hopen => ?_⟩
  · have hrefused : emitConfigured .configureStreaming s = .refused (.openPayload .configureStreaming) :=
      emitConfigured_of_open hopen
    exact ⟨hrefused, hrefused⟩
  · have hrefused : emitConfigured .startStreaming s = .refused (.openPayload .startStreaming) :=
      emitConfigured_of_open hopen
    exact ⟨hrefused, hrefused⟩

/-! ### The RESET event (rules R220 and R221) -/

/-- What the fetch finds when the configuration is legal and the earliest event is RESET. -/
theorem fetch_reset {s : State} {rest : List HostEvent} (hc : conforming s.cfg = true)
    (hi : s.inbox = .reset :: rest) : fetch s = .reset (s.setInbox rest) := by
  simp [fetch, hc, hi]

/-- A step that fetches RESET resets the block in the state with its event taken. -/
theorem step_of_fetch_reset {s t : State} (h : fetch s = .reset t) : step s = .next (resetBlock t) := by
  simp [step, h]

/-- Settles O37: the fetch finds RESET, and the step changes TAIL, the outputs and the queue alone. -/
theorem resetEventEmptiesTail : Obligations.ResetEventEmptiesTail := by
  intro s rest hc hi
  rw [step_of_fetch_reset (fetch_reset hc hi), resetBlock_eq]
  rfl

end Sys2Proof.Machine

/-! The decoder over every instruction (30_encoding.md §1 to §3), and the table words that reach the machine through
it (log 15). -/

namespace Sys2Proof.Machine

/-! ### The round trip of every instruction -/

open Laws.EncodeRoundTrip in
/-- Every instruction survives encoding when it is well formed, by the round trip of its own row. -/
theorem decode_encode (i : Instr) : Statement i := by
  cases i with
  | csum bytes => exact csum bytes
  | encDrive speed heading => exact encDrive speed heading
  | encRawMotors lm ls rm rs => exact encRawMotors lm ls rm rs
  | deriveMotor left right => exact deriveMotor left right
  | encDtpSi yaw x y speed => exact encDtpSi yaw x y speed
  | encResetYaw => exact encResetYaw
  | encCfgStream => exact encCfgStream
  | encStartStream => exact encStartStream
  | encSetAllLeds red green blue => exact encSetAllLeds red green blue
  | encWake => exact encWake
  | encSleep => exact encSleep
  | scan chunk => exact scan chunk
  | deserLocator frame => exact deserLocator frame
  | reservedD => exact reservedD
  | reservedE => exact reservedE
  | reservedF => exact reservedF
  | wireDrive speed heading reverse => exact wireDrive speed heading reverse
  | wireRawMotors lm ls rm rs => exact wireRawMotors lm ls rm rs
  | wireDriveToPositionSI yaw x y speed => exact wireDriveToPositionSI yaw x y speed
  | wireResetYaw => exact wireResetYaw
  | wireConfigureStreaming => exact wireConfigureStreaming
  | wireStartStreaming => exact wireStartStreaming
  | wireSetAllLEDs red green blue => exact wireSetAllLEDs red green blue
  | wireWake => exact wireWake
  | wireSleep => exact wireSleep
  | wireLocatorReport b1 b2 b3 rest => exact wireLocatorReport b1 b2 b3 rest

/-- Settles O42: `decode_encode` is the round trip of every row. -/
theorem decodeOfEncode : Obligations.DecodeOfEncode := decode_encode

/-! ### Table words (log 15) -/

/-- A table word reads as an instruction exactly when its request decodes to it. -/
theorem decodeTableWord_eq_some_iff {nbits w : Nat} {i : Instr} :
    decodeTableWord nbits w = some i ↔ ∃ r, tableRequest nbits w = some r ∧ decode r = .ok i := by
  unfold decodeTableWord
  cases tableRequest nbits w with
  | none => simp
  | some r => cases hdecode : decode r <;> simp [hdecode]

/-- Placing a table word puts its request before every event the host already has waiting. -/
theorem withFetchWord_of_tableRequest {nbits w : Nat} {r : Request} (h : tableRequest nbits w = some r) (s : State) :
    s.withFetchWord nbits w = issueFirst r s := by
  simp [State.withFetchWord, h]

/-- A request put before the waiting events is the one the next step runs, on the state as it was. -/
theorem step_issueFirst {s : State} {r : Request} {i : Instr} (hc : conforming s.cfg = true)
    (hd : decode r = .ok i) : step (issueFirst r s) = exec i s :=
  stepRunsTheDecodedRequest (issueFirst r s) r s.inbox i hc rfl hd

/-- Settles O40: the word's request becomes the earliest event, and the step runs what it decodes to. -/
theorem fetchWordRunsFirst : Obligations.FetchWordRunsFirst := by
  intro s nbits w i hc hword
  obtain ⟨r, hrequest, hdecode⟩ := decodeTableWord_eq_some_iff.mp hword
  rw [withFetchWord_of_tableRequest hrequest]
  exact step_issueFirst hc hdecode

end Sys2Proof.Machine
